-- ==== Sys2Proof/Word.lean ====
section
/-!
DEFINITION. Word types and the plain values the spec names: buffers, Commands, errors, phases, results.
Encodings of these values are in Decode.lean.
-/

namespace Sys2Proof

/-- One byte of caller memory, of the data register, or of a wire transfer. -/
abbrev Byte := BitVec 8

/-- A 32-bit word: a request word, a word of a queue entry, a controller register (rules R71, R76, R83). -/
abbrev Word := BitVec 32

/-- A buffer reference `(base, len)`, `ADDR_W = 32`, `len < 2^32` (rule R8). -/
structure Buf where
  base : Word
  len : Word
  deriving DecidableEq, Repr, Inhabited

/-- The direction of a data Command; its bit on the wire is rule R82's. -/
inductive Direction where
  | write
  | read
  deriving DecidableEq, Repr, Inhabited

/-- A data Command: `Write(addr, buf)` or `Read(addr, buf)` (rule R21). -/
structure DataCmd where
  dir : Direction
  addr : Byte
  buf : Buf
  deriving DecidableEq, Repr, Inhabited

/-- A queue entry: the NoOp sentinel or a data Command (rule R21). -/
inductive Command where
  | noop
  | data (c : DataCmd)
  deriving DecidableEq, Repr, Inhabited

/-- What a NACK failed on (rules R26, R175). -/
inductive NackSource where
  | unknown
  | address
  | data
  deriving DecidableEq, Repr, Inhabited

/-- The closed Error type (rule R26); `bus` is never produced and `busy` never stored (rule R232). -/
inductive BusError where
  | overrun
  | noAcknowledge (source : NackSource)
  | timeout
  | bus
  | crc
  | arbitrationLoss
  | busy
  deriving DecidableEq, Repr, Inhabited

/-- A Protocol State of one slot (rule R24). -/
inductive Phase where
  | begin
  | startGenerated
  | addressSend
  | byteProcessing
  | lastByte
  | finished
  | fail (e : BusError)
  deriving DecidableEq, Repr, Inhabited

/-- The value of a Future (rules R45, R80). -/
inductive Poll where
  | pending
  | readyOk
  | readyErr (e : BusError)
  deriving DecidableEq, Repr, Inhabited

/-- The result of an enqueue: `Ok(Future(slot))` or `Err(Busy)` (rules R81, R100). -/
inductive EnqResult where
  | ok (slot : Nat)
  | busy
  deriving DecidableEq, Repr, Inhabited

end Sys2Proof
end

