-- ==== Sys2Proof/Config.lean ====
section
/-!
DEFINITION. What an implementation fixes (the parameters the spec leaves open) and what comes from outside
the machine: the moves of the agents, and the free environment that draws them.
-/

namespace Sys2Proof

/-- `ADDR_W`, the width of a caller-memory address, at its default (rule R8; log 4). -/
def Config.addrW : Nat := 32

/-- `REG_LAYOUT`: offsets from `I2C_BASE` and bit positions of the controller's registers (rules R10, R83 to R86). -/
structure RegLayout where
  offCr1 : Nat
  offCr2 : Nat
  offDr : Nat
  offSr1 : Nat
  offSr2 : Nat
  pe : Nat
  start : Nat
  stop : Nat
  ack : Nat
  iterren : Nat
  itevten : Nat
  itbufen : Nat
  sb : Nat
  addr : Nat
  btf : Nat
  berr : Nat
  arlo : Nat
  af : Nat
  ovr : Nat
  pecerr : Nat
  timeout : Nat
  deriving DecidableEq, Repr

/-- The spec's default layout (rules R83, R84, R85). -/
def RegLayout.default : RegLayout where
  offCr1 := 0x00
  offCr2 := 0x04
  offDr := 0x10
  offSr1 := 0x14
  offSr2 := 0x18
  pe := 0
  start := 8
  stop := 9
  ack := 10
  iterren := 8
  itevten := 9
  itbufen := 10
  sb := 0
  addr := 1
  btf := 2
  berr := 8
  arlo := 9
  af := 10
  ovr := 11
  pecerr := 12
  timeout := 14

/-- Which bus agent the machine runs with: the permissive environment (rule R201, the default) or the reference
bus (rules R203 to R209). -/
inductive BusEnv where
  | permissive
  | reference
  deriving DecidableEq, Repr, Inhabited

/-- The parameters of one machine (rules R7, R10, R201). They are carried in State and no step changes them,
so a statement over every state holds for every value of them. -/
structure Params where
  /-- `N`, queue capacity and number of slots (rule R7). -/
  n : Nat
  layout : RegLayout
  i2cBase : Nat
  evIrqn : Nat
  erIrqn : Nat
  bus : BusEnv
  deriving DecidableEq, Repr

/-- The parameters of State.reset: `N = 4` as in the spec's vectors (log 3), the default layout and placeholder
platform numbers (log 5), the permissive bus (log 22). -/
def Params.default : Params where
  n := 4
  layout := RegLayout.default
  i2cBase := 0
  evIrqn := 0
  erIrqn := 0
  bus := .permissive

/-- The nine status flags of `SR1` (rule R31) and the bits of the register the engine does not read (rule R85). -/
structure Sr1 where
  sb : Bool
  addr : Bool
  btf : Bool
  timeout : Bool
  pecerr : Bool
  ovr : Bool
  af : Bool
  arlo : Bool
  berr : Bool
  other : Word
  deriving DecidableEq, Repr, Inhabited

/-- No flag set. -/
def Sr1.none : Sr1 where
  sb := false
  addr := false
  btf := false
  timeout := false
  pecerr := false
  ovr := false
  af := false
  arlo := false
  berr := false
  other := 0

/-- The flags an `inject` step may set (rule R209). -/
inductive InjectFlag where
  | timeout
  | pecerr
  | ovr
  | arlo
  | berr
  deriving DecidableEq, Repr, Inhabited

/-- The steps of the bus agent. The draws of the oracle `dev` (ACK or NACK, a received byte) are carried by the
move (rules R201, R203 to R209). -/
inductive BusMove where
  /-- Rule R201: set the flags of `set`, write `rx` to `DR`, clear `CR1.START`, clear `CR1.STOP`, any combination. -/
  | permissive (set : Sr1) (rx : Option Byte) (clearStart clearStop : Bool)
  | start
  | address (ack : Bool)
  | transmit (ack : Bool)
  | receive (b : Byte)
  | stop
  | inject (f : InjectFlag)
  deriving DecidableEq, Repr, Inhabited

/-- The three words of one `CMD` entry (rule R76). -/
structure CmdWords where
  w0 : Word
  w1 : Word
  w2 : Word
  deriving DecidableEq, Repr, Inhabited

/-- What one agent does in one step (rule R6). -/
inductive Move where
  /-- A task presents a request word and the two buffer ports (rules R71, R75). -/
  | task (w : Word) (wbuf rbuf : Buf)
  /-- A task presents a list of entries at the raw enqueue port (rule R112; log 27). -/
  | rawEnqueue (entries : List CmdWords)
  /-- The task whose FUTURE_BLOCK is the `k`-th holding one reads its slot again (rule R108; log 17). -/
  | resume (k : Nat)
  /-- A task reads a byte of caller memory (rule R56). -/
  | load (a : Word)
  /-- A task writes a byte of caller memory (rule R56). -/
  | store (a : Word) (b : Byte)
  /-- A task masks, or unmasks, interrupts globally across steps (rules R242, R275; log 20). -/
  | enterCritical
  | exitCritical
  /-- Code at or above the handlers' priority, an EV or ER handler's own code among it, begins, or ends: a caller that
  issues its requests where no handler step can run (rule R275; log 35). -/
  | enterRaised
  | exitRaised
  /-- The interrupt mechanism presents a request word: a handler entry (rules R72, R235). -/
  | interrupt (w : Word)
  /-- The EV handler leaves its STOP wait (rule R139). -/
  | stopWait
  /-- The bus agent steps (rule R200). -/
  | bus (b : BusMove)
  deriving DecidableEq, Repr, Inhabited

/-- What waits in State.script: a move of an agent, or a handler entry forced past rule R235 as the spec's
vectors E21 to E23, X15 and X16 force it (log 25). The environment never draws a forced entry. -/
inductive Offer where
  | agent (m : Move)
  | forced (w : Word)
  deriving DecidableEq, Repr, Inhabited

/-- The free environment: the move drawn at each tick when nothing waits in State.script. Nothing is known of
it, so the interleaving, the requests, the flags and the devices' answers are all open (rules R59, R201, R236;
log 1). -/
opaque Config.environment : Nat → Move

end Sys2Proof
end

