-- ==== Sys2Proof/Syntax.lean ====
section
/-!
DEFINITION. The instruction set: one constructor per row of spec/opcode_table.json, in the table's order.
-/

namespace Sys2Proof

/-- The rows of the opcode table in its four formats (rule R70): REQ (R72), CMD (R77), EVT (R87), ERR (R88). -/
inductive Instr where
  /-- REQ 0x1 (rule R104). -/
  | writeAsync (addr : Byte) (wbuf : Buf)
  /-- REQ 0x2 (rule R105). -/
  | readAsync (addr : Byte) (rbuf : Buf)
  /-- REQ 0x3 (rule R106). -/
  | writeReadAsync (addr : Byte) (wbuf rbuf : Buf)
  /-- REQ 0x4 (rule R107). -/
  | futureReady (slot : Byte)
  /-- REQ 0x5 (rule R108). -/
  | futureBlock (slot : Byte)
  /-- REQ 0x8, interrupt mechanism only (rule R130). -/
  | evIrq
  /-- REQ 0x9, interrupt mechanism only (rule R170). -/
  | erIrq
  /-- CMD tag 0b00, the transaction delimiter (rules R77, R141). -/
  | cmdNoop
  /-- CMD tag 0b01 (rules R77, R104). -/
  | cmdWrite (addr : Byte) (buf : Buf)
  /-- CMD tag 0b10 (rules R77, R105). -/
  | cmdRead (addr : Byte) (buf : Buf)
  /-- EVT (rule R133). -/
  | evSb
  /-- EVT (rule R134). -/
  | evAddrWrite
  /-- EVT (rule R135). -/
  | evAddrRead
  /-- EVT (rule R136). -/
  | evBtfWrite
  /-- EVT (rule R137). -/
  | evBtfRead
  /-- EVT (rule R138). -/
  | evBtfReadLast
  /-- EVT (rule R132). -/
  | evNone
  /-- ERR (rule R171). -/
  | erTimeout
  /-- ERR (rule R172). -/
  | erPecerr
  /-- ERR (rule R173). -/
  | erOvr
  /-- ERR (rule R174). -/
  | erAf
  /-- ERR (rule R176). -/
  | erArlo
  /-- ERR (rule R177). -/
  | erBerr
  /-- ERR (rule R178). -/
  | erNone
  deriving DecidableEq, Repr

end Sys2Proof
end

