-- ==== Sys2Proof/WellFormed.lean ====
section
/-!
DEFINITION. Well-formed parameters and well-formed instructions.
-/

namespace Sys2Proof

/-- Within each register no two fields share a bit, and every field lies in the 32-bit word (rules R83 to R85). -/
def RegLayout.wf (L : RegLayout) : Bool :=
  decide ([L.pe, L.start, L.stop, L.ack].Nodup) && [L.pe, L.start, L.stop, L.ack].all (· < 32) &&
  decide ([L.iterren, L.itevten, L.itbufen].Nodup) && [L.iterren, L.itevten, L.itbufen].all (· < 32) &&
  decide ([L.sb, L.addr, L.btf, L.timeout, L.pecerr, L.ovr, L.af, L.arlo, L.berr].Nodup) &&
  [L.sb, L.addr, L.btf, L.timeout, L.pecerr, L.ovr, L.af, L.arlo, L.berr].all (· < 32)

/-- `2 <= N <= 256` (rule R7) and a usable layout. -/
def Params.wf (p : Params) : Bool :=
  decide (2 ≤ p.n) && decide (p.n ≤ 256) && p.layout.wf

/-- The slot of a Future operation is below `N` (rule R73); every other operand takes any value of its field. -/
def Instr.wf (n : Nat) : Instr → Bool
  | .writeAsync _ _ => true
  | .readAsync _ _ => true
  | .writeReadAsync _ _ _ => true
  | .futureReady slot => decide (slot.toNat < n)
  | .futureBlock slot => decide (slot.toNat < n)
  | .evIrq => true
  | .erIrq => true
  | .cmdNoop => true
  | .cmdWrite _ _ => true
  | .cmdRead _ _ => true
  | .evSb => true
  | .evAddrWrite => true
  | .evAddrRead => true
  | .evBtfWrite => true
  | .evBtfRead => true
  | .evBtfReadLast => true
  | .evNone => true
  | .erTimeout => true
  | .erPecerr => true
  | .erOvr => true
  | .erAf => true
  | .erArlo => true
  | .erBerr => true
  | .erNone => true

end Sys2Proof
end

