-- ==== Sys2Proof/Decode.lean ====
section
/-!
DEFINITION. Decoding and encoding of the four formats (rule R70) and of the spec's values (rules R78 to R82).
A word's format is known from where it is, so a decoder is given the place together with the word.
-/

namespace Sys2Proof

/-! ### Bit fields (rule R11) -/

/-- `v[i]`. -/
def bitAt (w : Word) (i : Nat) : Bool := w.getLsbD i

/-- `w` with bit `i` written to `b`, every other bit as it was. -/
def putBit (i : Nat) (b : Bool) (w : Word) : Word :=
  if b then w ||| (1#32 <<< i) else w &&& ~~~(1#32 <<< i)

/-! ### The places a word can stand -/

/-- Who presents a request word: a task, or the interrupt mechanism (rules R72, R74). -/
inductive Issuer where
  | task
  | interrupt
  deriving DecidableEq, Repr

/-- The names a decoder rejects by (rules R73, R74, R112). -/
inductive DecodeError where
  /-- `REFUSE_RESERVED`: a reserved `OP`, a nonzero reserved field, a handler entry issued by a task (rules R73, R74);
  by the model's choice also a task's operation from the interrupt mechanism (log 31), and a CMD word rule R76 never
  produces, a reserved `TAG` among them (log 26). -/
  | reserved
  /-- `REFUSE_BAD_SLOT`: a Future operation with `slot >= N` (rule R73). -/
  | badSlot
  /-- `REFUSE_BAD_SHAPE`: a raw enqueue list other than the three legal ones (rule R112). -/
  | badShape
  deriving DecidableEq, Repr

/-- An encoded instruction, with the place its words stand in (rule R70). -/
inductive Code where
  /-- The host port: a request word and the two buffer ports (rules R71, R75). -/
  | req (issuer : Issuer) (w : Word) (wbuf rbuf : Buf)
  /-- A queue entry (rule R76). -/
  | cmd (words : CmdWords)
  /-- The status register at an EV entry, with the head Command's direction and whether `S[head] = LastByte`
  (rule R87). -/
  | evt (sr1 : Word) (dir : Direction) (last : Bool)
  /-- The status register at an ER entry (rule R88). -/
  | err (sr1 : Word)
  deriving DecidableEq, Repr

/-! ### REQ (rules R71 to R75) -/

/-- `OP`, bits 3:0. -/
def reqOp (w : Word) : Nat := (w.extractLsb' 0 4).toNat

/-- `ARG8`, bits 11:4. -/
def reqArg (w : Word) : Byte := w.extractLsb' 4 8

/-- `RSV`, bits 31:12. -/
def reqRsv (w : Word) : BitVec 20 := w.extractLsb' 12 20

/-- The operations a task may issue (rules R72, R73); a port an operation does not use is ignored (rule R75). -/
def decodeTaskOp (n op : Nat) (arg : Byte) (wbuf rbuf : Buf) : Except DecodeError Instr :=
  match op with
  | 1 => .ok (.writeAsync arg wbuf)
  | 2 => .ok (.readAsync arg rbuf)
  | 3 => .ok (.writeReadAsync arg wbuf rbuf)
  | 4 => if arg.toNat < n then .ok (.futureReady arg) else .error .badSlot
  | 5 => if arg.toNat < n then .ok (.futureBlock arg) else .error .badSlot
  | _ => .error .reserved

/-- The handler entries, which only the interrupt mechanism presents and whose `ARG8` is 0 (rules R72, R73). DESIGN
CHOICE (log 31): a task's operation, OP 0x1 to 0x5, presented by the interrupt mechanism is rejected as reserved;
rule R72 names tasks as its issuers, and no rule says what happens to it here (a request of a handler's own code,
rule R275, comes through the host port: log 35). -/
def decodeHandlerOp (op : Nat) (arg : Byte) : Except DecodeError Instr :=
  match op with
  | 8 => if arg = 0 then .ok .evIrq else .error .reserved
  | 9 => if arg = 0 then .ok .erIrq else .error .reserved
  | _ => .error .reserved

/-- Decode of the request word (rules R71 to R74). -/
def decodeReq (n : Nat) (issuer : Issuer) (w : Word) (wbuf rbuf : Buf) : Except DecodeError Instr :=
  if reqRsv w ≠ 0 then .error .reserved
  else
    match issuer with
    | .task => decodeTaskOp n (reqOp w) (reqArg w) wbuf rbuf
    | .interrupt => decodeHandlerOp (reqOp w) (reqArg w)

/-- `zext_32(ARG8 << 4 | OP)` (rule R89). -/
def reqWord (op : Nat) (arg : Byte) : Word := (arg.setWidth 32 <<< 4) ||| BitVec.ofNat 32 op

/-! ### CMD (rules R76, R77) -/

/-- `TAG`, bits 1:0 of word 0. -/
def cmdTag (w0 : Word) : Nat := (w0.extractLsb' 0 2).toNat

/-- `ADDR`, bits 9:2 of word 0. -/
def cmdAddr (w0 : Word) : Byte := w0.extractLsb' 2 8

/-- Bits 31:10 of word 0, which are 0. -/
def cmdRsv (w0 : Word) : BitVec 22 := w0.extractLsb' 10 22

/-- Decode of one queue entry. A word the format never holds (tag `0b11`, a nonzero field where rule R76 has 0) is
rejected (log 26). -/
def decodeCommand (c : CmdWords) : Except DecodeError Command :=
  if cmdRsv c.w0 ≠ 0 then .error .reserved
  else
    match cmdTag c.w0 with
    | 0 => if cmdAddr c.w0 = 0 ∧ c.w1 = 0 ∧ c.w2 = 0 then .ok .noop else .error .reserved
    | 1 => .ok (.data ⟨.write, cmdAddr c.w0, ⟨c.w1, c.w2⟩⟩)
    | 2 => .ok (.data ⟨.read, cmdAddr c.w0, ⟨c.w1, c.w2⟩⟩)
    | _ => .error .reserved

/-- The words of a queue entry (rule R76). -/
def encodeCommand : Command → CmdWords
  | .noop => ⟨0, 0, 0⟩
  | .data ⟨.write, a, b⟩ => ⟨(a.setWidth 32 <<< 2) ||| 1, b.base, b.len⟩
  | .data ⟨.read, a, b⟩ => ⟨(a.setWidth 32 <<< 2) ||| 2, b.base, b.len⟩

/-- The instruction a queue entry is (the three CMD rows of the table). -/
def Command.instr : Command → Instr
  | .noop => .cmdNoop
  | .data ⟨.write, a, b⟩ => .cmdWrite a b
  | .data ⟨.read, a, b⟩ => .cmdRead a b

/-- Decode of one CMD row. -/
def decodeCmd (c : CmdWords) : Except DecodeError Instr :=
  match decodeCommand c with
  | .ok k => .ok k.instr
  | .error e => .error e

/-- Decode of the list at the raw enqueue port, entry by entry. -/
def decodeEntries : List CmdWords → Except DecodeError (List Command)
  | [] => .ok []
  | c :: cs =>
    match decodeCommand c, decodeEntries cs with
    | .ok k, .ok ks => .ok (k :: ks)
    | .error e, _ => .error e
    | _, .error e => .error e

/-- The three legal enqueue lists, `[Write]`, `[Read]`, `[Write, Read]` (rule R112). DESIGN CHOICE (log 32): the
rule names the kinds only, so the two Commands of a raw `[Write, Read]` may carry different addresses, which those
of rule R106 never do. -/
def legalShape : List Command → Option (List DataCmd)
  | [.data c] => some [c]
  | [.data c, .data d] => if c.dir = .write ∧ d.dir = .read then some [c, d] else none
  | _ => none

/-! ### EVT and ERR (rules R85, R87, R88) -/

/-- The status flags of a word of `SR1`, by the layout (rule R85); the bits that are no flag go to `other`. -/
def sr1OfWord (L : RegLayout) (w : Word) : Sr1 where
  sb := bitAt w L.sb
  addr := bitAt w L.addr
  btf := bitAt w L.btf
  timeout := bitAt w L.timeout
  pecerr := bitAt w L.pecerr
  ovr := bitAt w L.ovr
  af := bitAt w L.af
  arlo := bitAt w L.arlo
  berr := bitAt w L.berr
  other :=
    putBit L.sb false <| putBit L.addr false <| putBit L.btf false <| putBit L.timeout false <|
      putBit L.pecerr false <| putBit L.ovr false <| putBit L.af false <| putBit L.arlo false <|
      putBit L.berr false w

/-- The word of `SR1`: the nine flags at their bits over the other bits (rule R85). -/
def sr1ToWord (L : RegLayout) (f : Sr1) : Word :=
  putBit L.sb f.sb <| putBit L.addr f.addr <| putBit L.btf f.btf <| putBit L.timeout f.timeout <|
    putBit L.pecerr f.pecerr <| putBit L.ovr f.ovr <| putBit L.af f.af <| putBit L.arlo f.arlo <|
    putBit L.berr f.berr f.other

/-- The cases of the EVT table (rule R87). -/
inductive EvCase where
  | sb
  | addrWrite
  | addrRead
  | btfWrite
  | btfRead
  | btfReadLast
  | none
  deriving DecidableEq, Repr

/-- First match wins, SB before ADDR before BTF; the variant by the head's direction and, for a Read byte, by
whether `S[head] = LastByte` (rules R87, R237). -/
def selectEvt (f : Sr1) (dir : Direction) (last : Bool) : EvCase :=
  if f.sb then .sb
  else if f.addr then
    match dir with
    | .write => .addrWrite
    | .read => .addrRead
  else if f.btf then
    match dir with
    | .write => .btfWrite
    | .read => if last then .btfReadLast else .btfRead
  else .none

/-- The row of the table a case is. -/
def EvCase.instr : EvCase → Instr
  | .sb => .evSb
  | .addrWrite => .evAddrWrite
  | .addrRead => .evAddrRead
  | .btfWrite => .evBtfWrite
  | .btfRead => .evBtfRead
  | .btfReadLast => .evBtfReadLast
  | .none => .evNone

/-- The cases of the ERR table (rule R88). -/
inductive ErCase where
  | timeout
  | pecerr
  | ovr
  | af
  | arlo
  | berr
  | none
  deriving DecidableEq, Repr

/-- First match wins: TIMEOUT, PECERR, OVR, AF, ARLO, BERR (rules R88, R237). -/
def selectErr (f : Sr1) : ErCase :=
  if f.timeout then .timeout
  else if f.pecerr then .pecerr
  else if f.ovr then .ovr
  else if f.af then .af
  else if f.arlo then .arlo
  else if f.berr then .berr
  else .none

/-- The row of the table a case is. -/
def ErCase.instr : ErCase → Instr
  | .timeout => .erTimeout
  | .pecerr => .erPecerr
  | .ovr => .erOvr
  | .af => .erAf
  | .arlo => .erArlo
  | .berr => .erBerr
  | .none => .erNone

/-- EVT decode of a word of `SR1` (rule R87). -/
def decodeEvt (L : RegLayout) (w : Word) (dir : Direction) (last : Bool) : Instr :=
  (selectEvt (sr1OfWord L w) dir last).instr

/-- ERR decode of a word of `SR1` (rule R88). -/
def decodeErr (L : RegLayout) (w : Word) : Instr := (selectErr (sr1OfWord L w)).instr

/-! ### Decode and encode of an instruction -/

/-- Decode, total on every word in every place. -/
def decode (p : Params) : Code → Except DecodeError Instr
  | .req issuer w wbuf rbuf => decodeReq p.n issuer w wbuf rbuf
  | .cmd words => decodeCmd words
  | .evt sr1 dir last => .ok (decodeEvt p.layout sr1 dir last)
  | .err sr1 => .ok (decodeErr p.layout sr1)

/-- The status word with only the flags of `f`, by the layout. -/
def evtCode (p : Params) (f : Sr1) (dir : Direction) (last : Bool) : Code :=
  .evt (sr1ToWord p.layout f) dir last

/-- Encode, from the same tables. A buffer port an operation does not use carries `(0, 0)`; a status word carries
the flag of its case alone. -/
def encode (p : Params) : Instr → Code
  | .writeAsync a wb => .req .task (reqWord 1 a) wb default
  | .readAsync a rb => .req .task (reqWord 2 a) default rb
  | .writeReadAsync a wb rb => .req .task (reqWord 3 a) wb rb
  | .futureReady slot => .req .task (reqWord 4 slot) default default
  | .futureBlock slot => .req .task (reqWord 5 slot) default default
  | .evIrq => .req .interrupt (reqWord 8 0) default default
  | .erIrq => .req .interrupt (reqWord 9 0) default default
  | .cmdNoop => .cmd (encodeCommand .noop)
  | .cmdWrite a b => .cmd (encodeCommand (.data ⟨.write, a, b⟩))
  | .cmdRead a b => .cmd (encodeCommand (.data ⟨.read, a, b⟩))
  | .evSb => evtCode p { Sr1.none with sb := true } .write false
  | .evAddrWrite => evtCode p { Sr1.none with addr := true } .write false
  | .evAddrRead => evtCode p { Sr1.none with addr := true } .read false
  | .evBtfWrite => evtCode p { Sr1.none with btf := true } .write false
  | .evBtfRead => evtCode p { Sr1.none with btf := true } .read false
  | .evBtfReadLast => evtCode p { Sr1.none with btf := true } .read true
  | .evNone => evtCode p Sr1.none .write false
  | .erTimeout => .err (sr1ToWord p.layout { Sr1.none with timeout := true })
  | .erPecerr => .err (sr1ToWord p.layout { Sr1.none with pecerr := true })
  | .erOvr => .err (sr1ToWord p.layout { Sr1.none with ovr := true })
  | .erAf => .err (sr1ToWord p.layout { Sr1.none with af := true })
  | .erArlo => .err (sr1ToWord p.layout { Sr1.none with arlo := true })
  | .erBerr => .err (sr1ToWord p.layout { Sr1.none with berr := true })
  | .erNone => .err (sr1ToWord p.layout Sr1.none)

/-! ### Value encodings (rules R78 to R81) -/

/-- `ECODE` (rule R79). -/
def ecode : BusError → Nat
  | .overrun => 0
  | .noAcknowledge .unknown => 1
  | .noAcknowledge .address => 2
  | .noAcknowledge .data => 3
  | .timeout => 4
  | .bus => 5
  | .crc => 6
  | .arbitrationLoss => 7
  | .busy => 8

/-- The Error of an `ECODE`; 9 to 15 are reserved (rule R79). -/
def errorOfEcode : Nat → Option BusError
  | 0 => some .overrun
  | 1 => some (.noAcknowledge .unknown)
  | 2 => some (.noAcknowledge .address)
  | 3 => some (.noAcknowledge .data)
  | 4 => some .timeout
  | 5 => some .bus
  | 6 => some .crc
  | 7 => some .arbitrationLoss
  | 8 => some .busy
  | _ => none

/-- `STATE` of a slot: `PHASE` in bits 2:0, `ECODE` in bits 6:3, bit 7 zero (rule R78). -/
def encodePhase : Phase → Byte
  | .begin => 0
  | .startGenerated => 1
  | .addressSend => 2
  | .byteProcessing => 3
  | .lastByte => 4
  | .finished => 5
  | .fail e => BitVec.ofNat 8 (6 + 8 * ecode e)

/-- The Protocol State of a `STATE` byte; `PHASE` 7, a reserved `ECODE`, an `ECODE` outside `Fail` and bit 7 are
never written (rule R78). -/
def decodePhase (b : Byte) : Option Phase :=
  if 128 ≤ b.toNat then none
  else
    match b.toNat % 8, b.toNat / 8 with
    | 0, 0 => some .begin
    | 1, 0 => some .startGenerated
    | 2, 0 => some .addressSend
    | 3, 0 => some .byteProcessing
    | 4, 0 => some .lastByte
    | 5, 0 => some .finished
    | 6, c => (errorOfEcode c).map .fail
    | _, _ => none

/-- `POLL`: `KIND` in bits 1:0, `ECODE` in bits 5:2 (rule R80). -/
def encodePoll : Poll → Byte
  | .pending => 0
  | .readyOk => 1
  | .readyErr e => BitVec.ofNat 8 (2 + 4 * ecode e)

/-- The Poll of a `POLL` byte (rule R80). -/
def decodePoll (b : Byte) : Option Poll :=
  if 64 ≤ b.toNat then none
  else
    match b.toNat % 4, b.toNat / 4 with
    | 0, 0 => some .pending
    | 1, 0 => some .readyOk
    | 2, c => (errorOfEcode c).map .readyErr
    | _, _ => none

/-- `ENQ`: bit 8 `BUSY`, bits 7:0 the slot (rule R81). -/
def encodeEnq : EnqResult → BitVec 16
  | .ok slot => BitVec.ofNat 16 (slot % 256)
  | .busy => 0x100

/-- The enqueue result of an `ENQ` value (rule R81). -/
def decodeEnq (v : BitVec 16) : Option EnqResult :=
  if v.toNat < 256 then some (.ok v.toNat)
  else if v.toNat = 256 then some .busy
  else none

/-! ### The host's reading of one table row -/

/-- The result of a decoder as the host asks for it. -/
def okInstr : Except DecodeError Instr → Option Instr
  | .ok i => some i
  | .error _ => none

/-- The instruction read from a word of the table, numbered as the table numbers it. The table gives no place, and
its four formats share words, so the width says the place (log 24): 32 bits a request word (a task's, else the
interrupt mechanism's; ports `(0, 0)`), 96 bits a queue entry, 16 bits `SR1` at an ER entry, 8 bits `SR1` at an EV
entry with a Write at the head. -/
def decodeTableWord (nbits w : Nat) : Option Instr :=
  if 2 ^ nbits ≤ w then none
  else
    match nbits with
    | 8 => some (decodeEvt RegLayout.default (BitVec.ofNat 32 w) .write false)
    | 16 => some (decodeErr RegLayout.default (BitVec.ofNat 32 w))
    | 32 =>
      match decodeReq Params.default.n .task (BitVec.ofNat 32 w) default default with
      | .ok i => some i
      | .error _ => okInstr (decodeReq Params.default.n .interrupt (BitVec.ofNat 32 w) default default)
    | 96 =>
      okInstr (decodeCmd ⟨BitVec.ofNat 32 w, BitVec.ofNat 32 (w / 2 ^ 32), BitVec.ofNat 32 (w / 2 ^ 64)⟩)
    | _ => none

end Sys2Proof
end

