-- ==== Sys2Proof/Machine/State.lean ====
section
/-!
DEFINITION. The state of the machine, its reset value, and the reasons a step can stop.
-/

namespace Sys2Proof.Machine

/-- Caller memory (rule R50): the bytes that differ from what an unlisted address reads as, addresses strictly
rising. -/
abbrev Memory := List Host.Cell

/-- `CR1` (rules R30, R83). -/
structure Cr1 where
  pe : Bool
  start : Bool
  stop : Bool
  ack : Bool
  /-- The bits of the register the engine does not use: "written with their current value" (rule R83). -/
  other : Word
  deriving DecidableEq, Repr

/-- `CR2` (rule R84), which the engine never writes. -/
structure Cr2 where
  iterren : Bool
  itevten : Bool
  itbufen : Bool
  other : Word
  deriving DecidableEq, Repr

/-- The set of named model faults (rule R34), one bit each. -/
structure ModelFaults where
  rxOverflow : Bool
  noopAtHead : Bool
  readNotLast : Bool
  bufferRace : Bool
  deriving DecidableEq, Repr

/-- The `mode` of the reference bus (rule R203). -/
inductive BusMode where
  | idle
  | addrPending
  | addrInFlight (b : Byte)
  | txIdle
  | txInFlight (b : Byte)
  | rx
  | rxDone
  deriving DecidableEq, Repr

/-- One entry of the wire log: `S`, `A<b>`, `N<b>`, `P` (rule R202). -/
inductive WireEntry where
  | start
  | acked (b : Byte)
  | nacked (b : Byte)
  | stop
  deriving DecidableEq, Repr

/-- A result a task agent received (rule R17). -/
inductive TaskResult where
  | enq (r : EnqResult)
  | poll (p : Poll)
  deriving DecidableEq, Repr

/-- The buffers a caller has lent to the engine: the data Commands of a transaction whose Future has not yet
returned Ready, and the slot of that Future (rule R56; log 18). -/
structure Loan where
  slot : Nat
  cmds : List DataCmd
  deriving DecidableEq, Repr

/-- A FUTURE_BLOCK that holds: its slot, and whether it was issued inside a critical section, or at or above the
handlers' priority (rules R108, R275; logs 17, 35). -/
structure Hold where
  slot : Nat
  inCritical : Bool
  raised : Bool
  deriving DecidableEq, Repr

/-- Everything the spec gives the machine. -/
structure State where
  /-- The parameters (rules R7, R10, R201); no step changes them. -/
  params : Params
  /-- `Q` (rule R22), head first. -/
  queue : List Command
  /-- `cursor` (rule R23). -/
  cursor : Nat
  /-- `S[0..N-1]` (rule R24). -/
  slots : List Phase
  /-- `head` (rule R25). -/
  head : Nat
  /-- `armed` (rule R27). -/
  armed : Bool
  /-- `wait_stop` (rule R28). -/
  waitStop : Bool
  /-- `faults` (rule R34). -/
  faults : ModelFaults
  /-- `CR1` (rule R30). -/
  cr1 : Cr1
  /-- `CR2` (rule R84). -/
  cr2 : Cr2
  /-- `SR1` (rule R31). -/
  sr1 : Sr1
  /-- `SR2` (rule R83). -/
  sr2 : Word
  /-- `DR` as written: the byte last handed to the bus (rule R32; log 9). -/
  drTx : Byte
  /-- `DR` as read: the byte last received (rule R32; log 9). -/
  drRx : Byte
  /-- Caller memory (rule R50). -/
  mem : Memory
  /-- `held` of the reference bus (rule R203). -/
  held : Bool
  /-- `mode` of the reference bus (rule R203). -/
  mode : BusMode
  /-- The wire log `W`, oldest first (rule R202). -/
  wire : List WireEntry
  /-- The results returned to tasks, oldest first (rule R17; log 23). -/
  results : List TaskResult
  /-- The buffers in flight (rule R56; log 18). -/
  loans : List Loan
  /-- The holding FUTURE_BLOCKs, oldest first (rule R108; log 17). -/
  blocked : List Hold
  /-- A task holds the critical section across steps (rules R235, R275; log 20). -/
  critical : Bool
  /-- Code at or above the handlers' priority is running, an EV or ER handler's own code among it, and issues the
  requests (rule R275; log 35). -/
  raised : Bool
  /-- The model's own: the offers waiting, next first (log 1). -/
  script : List Offer
  /-- The model's own: how many moves were drawn from the free environment (log 1). -/
  tick : Nat
  deriving DecidableEq, Repr

/-- Why a step stops with a fault. Neither is a model fault of rule R34: those are bits of State (log 11). -/
inductive Fault where
  /-- Raised by the EV handler (EV_ADDR_WRITE, EV_BTF_WRITE, EV_BTF_READ, EV_BTF_READ_LAST) when `base + cursor` is
  no 32-bit address (rules R8, R50; log 6). Safe: the machine stops where the spec gives no byte. -/
  | outsideAddressSpace (address : Nat)
  /-- Raised by Finalize and its callers (EndCommand, Skip, CMD_NOOP, the STOP wait) when the queue has no NoOp where
  rule R141's precondition needs one; impossible while rule R36 holds (log 15). Safe: the machine stops. -/
  | noNoopToFinalize
  deriving DecidableEq, Repr

/-- Why a step is refused: the request has no meaning (rule R12; log 12). Safe, each of them: the machine stops. -/
inductive Refusal where
  /-- Raised by exec's arms of instructions the model gives no meaning. -/
  | notModelled (mnemonic : String)
  /-- `REFUSE_RESERVED`, raised when a request word or a queue entry is decoded (rules R73, R74, R77). -/
  | reserved
  /-- `REFUSE_BAD_SLOT`, raised by decode and by FUTURE_READY and FUTURE_BLOCK when `slot >= N` (rule R73). -/
  | badSlot
  /-- `REFUSE_BAD_SHAPE`, raised by the raw enqueue port (rule R112). -/
  | badShape
  /-- Raised by a case of the EV handler run on a head Command or phase for which rule R87 does not select it; no
  handler entry reaches it (log 14). -/
  | caseNotSelected
  deriving DecidableEq, Repr

/-- The machine with parameters `p` right after reset (rules R47, R270), after boot (rules R271, R272). Where the
spec gives no value: logs 7, 8, 9, 10. -/
def State.resetWith (p : Params) : State where
  params := p
  queue := []
  cursor := 0
  slots := List.replicate p.n .begin
  head := 0
  armed := false
  waitStop := false
  faults := ⟨false, false, false, false⟩
  cr1 := { pe := true, start := false, stop := false, ack := false, other := 0 }
  cr2 := { iterren := true, itevten := true, itbufen := false, other := 0 }
  sr1 := Sr1.none
  sr2 := 0
  drTx := 0
  drRx := 0
  mem := []
  held := false
  mode := .idle
  wire := []
  results := []
  loans := []
  blocked := []
  critical := false
  raised := false
  script := []
  tick := 0

/-- The machine right after reset, with the parameters of log 3 and log 5. -/
def State.reset : State := State.resetWith Params.default

end Sys2Proof.Machine
end

