-- ==== Sys2Proof/Machine/Flags.lean ====
section
/-!
DEFINITION. Status flags, control bits and interrupt requests: who sets and clears each (rule R44), and the
controller's register words (rules R83 to R86). The engine has no condition codes (rule R44).
-/

namespace Sys2Proof.Machine

/-! ### Clearing a status flag: that flag and no other (rules R130, R170) -/

/-- `SB <- 0`. -/
def clearSb (s : State) : State := { s with sr1 := { s.sr1 with sb := false } }

/-- `ADDR <- 0`. -/
def clearAddr (s : State) : State := { s with sr1 := { s.sr1 with addr := false } }

/-- `BTF <- 0`. -/
def clearBtf (s : State) : State := { s with sr1 := { s.sr1 with btf := false } }

/-- Clear the flag an ERR case services (rule R170); `none` services no flag. -/
def clearErr (c : ErCase) (s : State) : State :=
  match c with
  | .timeout => { s with sr1 := { s.sr1 with timeout := false } }
  | .pecerr => { s with sr1 := { s.sr1 with pecerr := false } }
  | .ovr => { s with sr1 := { s.sr1 with ovr := false } }
  | .af => { s with sr1 := { s.sr1 with af := false } }
  | .arlo => { s with sr1 := { s.sr1 with arlo := false } }
  | .berr => { s with sr1 := { s.sr1 with berr := false } }
  | .none => s

/-- Clear the highest-priority set flag among SB, ADDR, BTF (rule R131). -/
def clearTopEvent (s : State) : State :=
  if s.sr1.sb then clearSb s
  else if s.sr1.addr then clearAddr s
  else if s.sr1.btf then clearBtf s
  else s

/-! ### Setting status flags: the bus agent only (rule R31) -/

/-- The flags of `f` set over those of `g`; no flag is cleared (rules R201, R210). -/
def sr1Union (f g : Sr1) : Sr1 where
  sb := f.sb || g.sb
  addr := f.addr || g.addr
  btf := f.btf || g.btf
  timeout := f.timeout || g.timeout
  pecerr := f.pecerr || g.pecerr
  ovr := f.ovr || g.ovr
  af := f.af || g.af
  arlo := f.arlo || g.arlo
  berr := f.berr || g.berr
  other := f.other

/-- Set the one flag of an `inject` step (rule R209). -/
def sr1Inject (i : InjectFlag) (f : Sr1) : Sr1 :=
  match i with
  | .timeout => { f with timeout := true }
  | .pecerr => { f with pecerr := true }
  | .ovr => { f with ovr := true }
  | .arlo => { f with arlo := true }
  | .berr => { f with berr := true }

/-! ### Control bits (rules R142, R143, R144, R49) -/

/-- `IssueStart()`: `CR1.ACK <- 1; CR1.START <- 1` (rule R142). -/
def issueStart (s : State) : State := { s with cr1 := { s.cr1 with ack := true, start := true } }

/-- `RequestStop()`: `CR1.STOP <- 1` (rule R143). -/
def requestStop (s : State) : State := { s with cr1 := { s.cr1 with stop := true } }

/-- `CR1.ACK <- 0` (rules R49, R137). -/
def dropAck (s : State) : State := { s with cr1 := { s.cr1 with ack := false } }

/-- `Arm()`: both vectors unmasked (rule R144). The pending bits it clears first are derived from the flags, so that
clearing changes nothing (rules R33, R234; log 21). -/
def arm (s : State) : State := { s with armed := true }

/-- `Disarm()`: both vectors masked (rule R144). -/
def disarm (s : State) : State := { s with armed := false }

/-! ### Interrupt requests (rules R33, R234, R235) -/

/-- The event interrupt is requested, and its vector pending, while SB, ADDR or BTF is set. -/
def evRequested (s : State) : Bool := s.sr1.sb || s.sr1.addr || s.sr1.btf

/-- The error interrupt is requested, and its vector pending, while one of the six error flags is set. -/
def erRequested (s : State) : Bool :=
  s.sr1.timeout || s.sr1.pecerr || s.sr1.ovr || s.sr1.af || s.sr1.arlo || s.sr1.berr

/-- The conditions of rule R235 but for the request: armed, no handler executing (the STOP wait, and any code at or
above the handlers' priority, rule R275), no task in a critical section. -/
def handlersFree (s : State) : Bool := s.armed && !s.waitStop && !s.critical && !s.raised

/-- The EV handler can take its entry (rule R235). -/
def evMayEnter (s : State) : Bool := handlersFree s && evRequested s

/-- The ER handler can take its entry (rule R235). -/
def erMayEnter (s : State) : Bool := handlersFree s && erRequested s

/-! ### Model faults (rule R34): set, never cleared -/

/-- The names of the model faults. -/
inductive ModelFault where
  | rxOverflow
  | noopAtHead
  | readNotLast
  | bufferRace
  deriving DecidableEq, Repr

/-- `fault F` (rule R12): the bit of `F` is set; what the step wrote before stands. -/
def setFault (f : ModelFault) (s : State) : State :=
  match f with
  | .rxOverflow => { s with faults := { s.faults with rxOverflow := true } }
  | .noopAtHead => { s with faults := { s.faults with noopAtHead := true } }
  | .readNotLast => { s with faults := { s.faults with readNotLast := true } }
  | .bufferRace => { s with faults := { s.faults with bufferRace := true } }

/-! ### The controller's register words (rules R83 to R86) -/

/-- The word of `CR1`: the four fields at their bits over the bits the engine does not use (rule R83). -/
def cr1Word (s : State) : Word :=
  let L := s.params.layout
  putBit L.pe s.cr1.pe <| putBit L.start s.cr1.start <| putBit L.stop s.cr1.stop <| putBit L.ack s.cr1.ack s.cr1.other

/-- The word of `CR2` (rule R84). -/
def cr2Word (s : State) : Word :=
  let L := s.params.layout
  putBit L.iterren s.cr2.iterren <| putBit L.itevten s.cr2.itevten <| putBit L.itbufen s.cr2.itbufen s.cr2.other

/-- The word of `SR1` (rule R85). -/
def sr1Word (s : State) : Word := sr1ToWord s.params.layout s.sr1

/-- The word a read of `DR` gives: the received byte in bits 7:0, bits 31:8 zero (rules R32, R86). -/
def drWord (s : State) : Word := s.drRx.setWidth 32

/-- A 32-bit read of the register block at an offset from `I2C_BASE`; no register at any other offset
(rules R58, R83). -/
def regRead (s : State) (off : Nat) : Option Word :=
  let L := s.params.layout
  if off = L.offCr1 then some (cr1Word s)
  else if off = L.offCr2 then some (cr2Word s)
  else if off = L.offDr then some (drWord s)
  else if off = L.offSr1 then some (sr1Word s)
  else if off = L.offSr2 then some s.sr2
  else none

end Sys2Proof.Machine
end

