-- ==== Sys2Proof/Machine/Operands.lean ====
section
/-!
DEFINITION. Operand forms: the address byte, buffer addresses, the NACK refinement and the Poll of a phase.
-/

namespace Sys2Proof.Machine

/-- `addrbyte(a, d) = a[6:0] : d`, `d = 1` for a Read (rule R82). -/
def addrByte (a : Byte) (d : Direction) : Byte :=
  (a <<< 1) ||| (match d with
    | .write => 0#8
    | .read => 1#8)

/-- The caller-memory address of byte `i` of a buffer, `base + i` (rule R51). -/
def bufAddr (b : Buf) (i : Nat) : Nat := b.base.toNat + i

/-- `a` is an address of caller memory, below `2^ADDR_W` (rules R8, R50). -/
def isAddr (a : Nat) : Bool := decide (a < 2 ^ Config.addrW)

/-- `a` is the address of a byte of `b` (rule R56). -/
def inBuf (a : Nat) (b : Buf) : Bool := decide (b.base.toNat ≤ a) && decide (a < b.base.toNat + b.len.toNat)

/-- `nack_source(p)` (rule R175). -/
def nackSource : Phase → NackSource
  | .startGenerated => .address
  | .addressSend => .data
  | .byteProcessing => .data
  | .lastByte => .data
  | .begin => .unknown
  | .finished => .unknown
  | .fail _ => .unknown

/-- The Poll of a Protocol State (rule R107). -/
def pollOf : Phase → Poll
  | .begin => .pending
  | .startGenerated => .pending
  | .addressSend => .pending
  | .byteProcessing => .pending
  | .lastByte => .pending
  | .finished => .readyOk
  | .fail e => .readyErr e

/-- `Finished` and `Fail(_)` are terminal (rule R24). -/
def phaseTerminal : Phase → Bool
  | .begin => false
  | .startGenerated => false
  | .addressSend => false
  | .byteProcessing => false
  | .lastByte => false
  | .finished => true
  | .fail _ => true

/-- `Fail(_)`, which Finalize does not overwrite (rule R141). -/
def phaseFailed : Phase → Bool
  | .begin => false
  | .startGenerated => false
  | .addressSend => false
  | .byteProcessing => false
  | .lastByte => false
  | .finished => false
  | .fail _ => true

end Sys2Proof.Machine
end

