-- ==== Sys2Proof/Machine/Ops.lean ====
section
/-!
DEFINITION. The named operations over memory, slots and the queue, and the shared procedures of the handlers:
enqueue, EndCommand, Finalize, FailHead, Skip. A wire fault is the engine's exception: FailHead takes it, recording
the Error in the head slot (rule R179), and there is no return from one, since entry saves no engine state
(rule R239).
-/

namespace Sys2Proof.Machine

/-! ### Caller memory (rules R50 to R54) -/

/-- What an address nothing has written reads as (log 7). -/
def unwritten : Byte := 0

/-- `MemRead(a, 1)` (rule R12). -/
def memRead : Memory → Nat → Byte
  | [], _ => unwritten
  | (k, b) :: r, a => if k = a then b else memRead r a

/-- The cells with `a` set to `v` at the front, unless `v` is what an unlisted address reads as. -/
def memCons (a : Nat) (v : Byte) (r : Memory) : Memory := if v = unwritten then r else (a, v) :: r

/-- `MemWrite(a, 1, v)` (rule R12), keeping the canonical form. -/
def memWrite : Memory → Nat → Byte → Memory
  | [], a, v => memCons a v []
  | (k, b) :: r, a, v =>
    if a < k then memCons a v ((k, b) :: r)
    else if a = k then memCons a v r
    else (k, b) :: memWrite r a v

/-- The canonical form: addresses strictly rising and below `2^ADDR_W`, no cell that reads as an unlisted one. -/
def Memory.wf : Memory → Bool
  | [] => true
  | [(k, b)] => isAddr k && decide (b ≠ unwritten)
  | (k, b) :: (k', b') :: r => isAddr k && decide (b ≠ unwritten) && decide (k < k') && Memory.wf ((k', b') :: r)

/-! ### Slots (rules R24, R43) -/

/-- `S[i]`; an index with no slot reads as Begin, in states no run reaches (log 30). -/
def phaseAt (s : State) (i : Nat) : Phase := s.slots.getD i .begin

/-- `S[head]`. -/
def headPhase (s : State) : Phase := phaseAt s s.head

/-- `S[i] <- p`. -/
def setPhase (i : Nat) (p : Phase) (s : State) : State := { s with slots := s.slots.set i p }

/-- `S[head] <- p`. -/
def setHeadPhase (p : Phase) (s : State) : State := setPhase s.head p s

/-! ### The queue (rules R13, R22) -/

/-- Is the entry the NoOp? -/
def isNoop : Command → Bool
  | .noop => true
  | .data _ => false

/-- `noops(Q)` (rule R13). -/
def noops (q : List Command) : Nat := q.countP isNoop

/-- The slot the next enqueued transaction receives, `(head + noops(Q)) mod N` (rule R102). -/
def nextSlot (s : State) : Nat := (s.head + noops s.queue) % s.params.n

/-- The entries of one transaction: its data Commands and its NoOp (rule R100). -/
def group (cmds : List DataCmd) : List Command := cmds.map Command.data ++ [.noop]

/-! ### The data register (rules R32, R54, R204, R205) -/

/-- What a byte handed to `DR` does to the reference bus: an address byte is taken up in AddrPending, a data byte in
TxIdle, and any other mode ignores it (rules R204, R205). -/
def busTake (b : Byte) : BusMode → BusMode
  | .idle => .idle
  | .addrPending => .addrInFlight b
  | .addrInFlight a => .addrInFlight a
  | .txIdle => .txInFlight b
  | .txInFlight a => .txInFlight a
  | .rx => .rx
  | .rxDone => .rxDone

/-- `DR <- b` (rule R12), with what the reference bus does as part of the engine's step. -/
def writeDr (b : Byte) (s : State) : State := { s with drTx := b, mode := busTake b s.mode }

/-! ### Results returned to tasks (rules R17, R100, R107) -/

/-- A host operation returns its result. -/
def giveResult (r : TaskResult) (s : State) : State := { s with results := s.results ++ [r] }

/-- The loans of the Future of `slot` end (rule R56). -/
def endLoans (slot : Nat) (s : State) : State := { s with loans := s.loans.filter (fun l => decide (l.slot ≠ slot)) }

/-- Return the Poll of `S[slot]`; a Ready value ends the loans of that Future (rules R56, R107). -/
def returnPoll (slot : Nat) (s : State) : State :=
  if phaseTerminal (phaseAt s slot) then endLoans slot (giveResult (.poll (pollOf (phaseAt s slot))) s)
  else giveResult (.poll (pollOf (phaseAt s slot))) s

/-! ### Enqueue (rules R100 to R103) -/

/-- The pushes of an accepted enqueue, the slot's reset and the buffers' loan. -/
def pushGroup (cmds : List DataCmd) (s : State) : State :=
  { s with
    queue := s.queue ++ group cmds
    slots := s.slots.set (nextSlot s) .begin
    loans := s.loans ++ [⟨nextSlot s, cmds⟩] }

/-- Arm, then IssueStart (rule R100). -/
def startIdle (s : State) : State := issueStart (arm s)

/-- An accepted enqueue (rules R100, R102, R103). -/
def acceptEnqueue (cmds : List DataCmd) (s : State) : State :=
  giveResult (.enq (.ok (nextSlot s)))
    (if s.queue.isEmpty then startIdle (pushGroup cmds s) else pushGroup cmds s)

/-- `enqueue(cmds)`, one atomic step (rule R100); `Err(Busy)` writes nothing else (rule R101). -/
def enqueue (cmds : List DataCmd) (s : State) : State :=
  if s.params.n < s.queue.length + cmds.length + 1 then giveResult (.enq .busy) s
  else acceptEnqueue cmds s

/-! ### The end of a transaction (rules R140, R141) -/

/-- The phase Finalize leaves: a recorded Fail stays (rule R141). -/
def finalPhase (p : Phase) : Phase := if phaseFailed p then p else .finished

/-- Start the next queued transaction, or mask the vectors when none is left (rule R141). -/
def chainOrDisarm (s : State) : State := if s.queue.isEmpty then disarm s else issueStart s

/-- Finalize with `rest` the queue behind the NoOp (rule R141). -/
def finalizeTo (rest : List Command) (s : State) : State :=
  chainOrDisarm
    { s with
      queue := rest
      slots := s.slots.set s.head (finalPhase (headPhase s))
      head := (s.head + 1) % s.params.n }

/-- `Finalize()`, whose precondition is `Q[0] = NoOp` (rule R141). -/
def finalize (s : State) : Host.Outcome State Fault Refusal :=
  match s.queue with
  | .noop :: rest => .next (finalizeTo rest s)
  | [] => .fault .noNoopToFinalize
  | .data _ :: _ => .fault .noNoopToFinalize

/-- `pop(Q); cursor <- 0` (rule R140). -/
def popCommand (s : State) : State := { s with queue := s.queue.tail, cursor := 0 }

/-- `EndCommand(stop_done)` for the head data Command `c` (rule R140). -/
def endCommand (c : DataCmd) (stopDone : Bool) (s : State) : Host.Outcome State Fault Refusal :=
  match s.queue.tail with
  | [] => .fault .noNoopToFinalize
  | .noop :: _ => finalize (if stopDone then popCommand s else requestStop (popCommand s))
  | .data _ :: _ =>
    match c.dir with
    | .read => .next (setFault .readNotLast (popCommand s))
    | .write => .next (issueStart (setHeadPhase .begin (popCommand s)))

/-! ### Taking a wire fault (rules R179, R180) -/

/-- `Skip()`: the rest of the failing transaction's data Commands, then Finalize (rule R180). -/
def skip (s : State) : Host.Outcome State Fault Refusal :=
  finalize { s with queue := s.queue.dropWhile (fun k => !isNoop k), cursor := 0 }

/-- `FailHead(e)` (rule R179). -/
def failHead (e : BusError) (s : State) : Host.Outcome State Fault Refusal := skip (setHeadPhase (.fail e) s)

/-! ### The head Command in a handler (rules R130, R131, R146) -/

/-- Run an EV case on the head data Command: an empty queue is EV_IDLE (rule R131), a NoOp at the head the model
fault (rule R146). -/
def onHead (s : State) (run : DataCmd → Host.Outcome State Fault Refusal) : Host.Outcome State Fault Refusal :=
  match s.queue with
  | [] => .next (clearTopEvent s)
  | .noop :: _ => .next (setFault .noopAtHead s)
  | .data c :: _ => run c

/-- Transmit byte `cursor` of the head's buffer, or end the Command when none is left (rules R134, R136). -/
def transmitNext (c : DataCmd) (s : State) : Host.Outcome State Fault Refusal :=
  if s.cursor < c.buf.len.toNat then
    if isAddr (bufAddr c.buf s.cursor) then
      .next { writeDr (memRead s.mem (bufAddr c.buf s.cursor)) s with cursor := s.cursor + 1 }
    else .fault (.outsideAddressSpace (bufAddr c.buf s.cursor))
  else endCommand c false s

/-- `MemWrite(base + cursor, 1, DR); cursor <- cursor + 1` (rules R137, R138). -/
def storeReceived (c : DataCmd) (s : State) : State :=
  { s with mem := memWrite s.mem (bufAddr c.buf s.cursor) s.drRx, cursor := s.cursor + 1 }

/-- Capture the received byte and go on with `andThen`; no room in the buffer is FAULT_RX_OVERFLOW (rule R145). -/
def capture (c : DataCmd) (andThen : State → State) (s : State) : Host.Outcome State Fault Refusal :=
  if c.buf.len.toNat ≤ s.cursor then .next (setFault .rxOverflow s)
  else if isAddr (bufAddr c.buf s.cursor) then .next (andThen (storeReceived c s))
  else .fault (.outsideAddressSpace (bufAddr c.buf s.cursor))

/-- A reported error flag: cleared, and the head transaction failed with `e`; with `Q` empty only cleared
(rules R170, R181); a NoOp at the head is the model fault and nothing else (rules R34, R146; log 16). -/
def reportError (c : ErCase) (e : BusError) (s : State) : Host.Outcome State Fault Refusal :=
  match s.queue with
  | [] => .next (clearErr c s)
  | .noop :: _ => .next (setFault .noopAtHead s)
  | .data _ :: _ => failHead e (clearErr c s)

end Sys2Proof.Machine
end

