-- ==== Sys2Proof/Machine/Bus.lean ====
section
/-!
DEFINITION. The bus agent (43_bus_agent): the permissive environment and the reference bus. It never writes engine
state and never clears a status flag (rules R200, R210). A step that is not enabled leaves the state as it was.
-/

namespace Sys2Proof.Machine

/-- The modes from which the reference bus performs a START or a STOP (rules R203, R207). -/
def busResting : BusMode → Bool
  | .idle => true
  | .addrPending => false
  | .addrInFlight _ => false
  | .txIdle => true
  | .txInFlight _ => false
  | .rx => false
  | .rxDone => true

/-- The START step is enabled: requested, no STOP requested before it (rules R203, R208). -/
def startEnabled (s : State) : Bool := s.cr1.start && !s.cr1.stop && busResting s.mode

/-- The STOP step is enabled (rule R207). -/
def stopEnabled (s : State) : Bool := s.cr1.stop && busResting s.mode

/-- The receive step is enabled: no address-sent flag and no received byte unserviced (rule R206). -/
def receiveEnabled (s : State) : Bool := decide (s.mode = .rx) && !s.sr1.addr && !s.sr1.btf

/-- One step of the permissive environment; it records no wire log (rule R201). -/
def busPermissive (set : Sr1) (rx : Option Byte) (clearStart clearStop : Bool) (s : State) : State :=
  { s with
    sr1 := sr1Union s.sr1 set
    drRx := rx.getD s.drRx
    cr1 := { s.cr1 with start := s.cr1.start && !clearStart, stop := s.cr1.stop && !clearStop } }

/-- START, or a repeated START on a held bus (rule R203). -/
def busStart (s : State) : State :=
  if startEnabled s then
    { s with
      wire := s.wire ++ [.start]
      held := true
      cr1 := { s.cr1 with start := false }
      sr1 := { s.sr1 with sb := true }
      mode := .addrPending }
  else s

/-- The wire entry of a byte and its acknowledge bit (rule R202). -/
def wireByte (ack : Bool) (b : Byte) : WireEntry := if ack then .acked b else .nacked b

/-- The address step; bit 0 of the address byte tells a Read (rules R82, R204). -/
def busAddress (ack : Bool) (s : State) : State :=
  match s.mode with
  | .addrInFlight b =>
    if ack then
      { s with
        wire := s.wire ++ [wireByte true b]
        sr1 := { s.sr1 with addr := true }
        mode := if b.getLsbD 0 then .rx else .txIdle }
    else { s with wire := s.wire ++ [wireByte false b], sr1 := { s.sr1 with af := true }, mode := .idle }
  | _ => s

/-- The transmit step (rule R205). -/
def busTransmit (ack : Bool) (s : State) : State :=
  match s.mode with
  | .txInFlight b =>
    if ack then { s with wire := s.wire ++ [wireByte true b], sr1 := { s.sr1 with btf := true }, mode := .txIdle }
    else { s with wire := s.wire ++ [wireByte false b], sr1 := { s.sr1 with af := true }, mode := .idle }
  | _ => s

/-- The receive step; the acknowledge bit is `CR1.ACK` (rule R206). -/
def busReceive (b : Byte) (s : State) : State :=
  if receiveEnabled s then
    { s with
      wire := s.wire ++ [wireByte s.cr1.ack b]
      drRx := b
      sr1 := { s.sr1 with btf := true }
      mode := if !s.cr1.ack || s.cr1.stop then .rxDone else .rx }
  else s

/-- The STOP step (rule R207). -/
def busStop (s : State) : State :=
  if stopEnabled s then
    { s with wire := s.wire ++ [.stop], held := false, cr1 := { s.cr1 with stop := false }, mode := .idle }
  else s

/-- An injected fault (rule R209). -/
def busInject (f : InjectFlag) (s : State) : State := { s with sr1 := sr1Inject f s.sr1 }

/-- One step of the bus agent: the permissive environment's when the machine runs with it, the reference bus's
otherwise (rules R200, R201; log 22). -/
def busStep (b : BusMove) (s : State) : State :=
  match s.params.bus, b with
  | .permissive, .permissive set rx cs cp => busPermissive set rx cs cp s
  | .permissive, .start => s
  | .permissive, .address _ => s
  | .permissive, .transmit _ => s
  | .permissive, .receive _ => s
  | .permissive, .stop => s
  | .permissive, .inject _ => s
  | .reference, .permissive _ _ _ _ => s
  | .reference, .start => busStart s
  | .reference, .address ack => busAddress ack s
  | .reference, .transmit ack => busTransmit ack s
  | .reference, .receive b => busReceive b s
  | .reference, .stop => busStop s
  | .reference, .inject f => busInject f s

end Sys2Proof.Machine
end

