-- ==== Sys2Proof/Machine/Commands.lean ====
section
/-!
DEFINITION. The CMD rows (rules R76, R77; log 13): a data entry is the enqueue the table's rule gives it, the NoOp is
consumed by Finalize.
-/

namespace Sys2Proof.Machine

/-- `CMD_NOOP`, "consumed by rule R141" (rules R92, R141). -/
def execCmdNoop (s : State) : Host.Outcome State Fault Refusal := finalize s

/-- `CMD_WRITE`: `enqueue([Write(a, buf)])` (rules R104, R112). -/
def execCmdWrite (addr : Byte) (buf : Buf) (s : State) : Host.Outcome State Fault Refusal :=
  .next (enqueue [⟨.write, addr, buf⟩] s)

/-- `CMD_READ`: `enqueue([Read(a, buf)])` (rules R105, R112). -/
def execCmdRead (addr : Byte) (buf : Buf) (s : State) : Host.Outcome State Fault Refusal :=
  .next (enqueue [⟨.read, addr, buf⟩] s)

end Sys2Proof.Machine
end

