-- ==== Sys2Proof/Machine/Errors.lean ====
section
/-!
DEFINITION. The ER handler (42_error_handler): its cases and its entry `ER_IRQ`.
-/

namespace Sys2Proof.Machine

/-- `ER_TIMEOUT` (rule R171). -/
def execErTimeout (s : State) : Host.Outcome State Fault Refusal := reportError .timeout .timeout s

/-- `ER_PECERR` (rule R172). -/
def execErPecerr (s : State) : Host.Outcome State Fault Refusal := reportError .pecerr .crc s

/-- `ER_OVR` (rule R173). -/
def execErOvr (s : State) : Host.Outcome State Fault Refusal := reportError .ovr .overrun s

/-- `ER_AF`, refined from the head slot's phase in the same step (rules R174, R175). -/
def execErAf (s : State) : Host.Outcome State Fault Refusal :=
  reportError .af (.noAcknowledge (nackSource (headPhase s))) s

/-- `ER_ARLO` (rule R176). -/
def execErArlo (s : State) : Host.Outcome State Fault Refusal := reportError .arlo .arbitrationLoss s

/-- `ER_BERR`: cleared, not reported (rule R177). -/
def execErBerr (s : State) : Host.Outcome State Fault Refusal := .next (clearErr .berr s)

/-- `ER_NONE`: nothing (rule R178). -/
def execErNone (s : State) : Host.Outcome State Fault Refusal := .next s

/-- `ER_IRQ`: one entry of the ER handler, which reads `SR1` and performs exactly one case (rule R170). -/
def execErIrq (s : State) : Host.Outcome State Fault Refusal :=
  match selectErr s.sr1 with
  | .timeout => execErTimeout s
  | .pecerr => execErPecerr s
  | .ovr => execErOvr s
  | .af => execErAf s
  | .arlo => execErArlo s
  | .berr => execErBerr s
  | .none => execErNone s

end Sys2Proof.Machine
end

