-- ==== Sys2Proof/Machine/Events.lean ====
section
/-!
DEFINITION. The EV handler (41_event_engine): its cases, its STOP wait, and its entry `EV_IRQ`.
-/

namespace Sys2Proof.Machine

/-- `EV_SB` (rule R133). -/
def execEvSb (s : State) : Host.Outcome State Fault Refusal :=
  onHead s fun c => .next (clearSb (writeDr (addrByte c.addr c.dir) (setHeadPhase .startGenerated s)))

/-- `EV_ADDR_WRITE` (rule R134). -/
def execEvAddrWrite (s : State) : Host.Outcome State Fault Refusal :=
  onHead s fun c =>
    match c.dir with
    | .write => transmitNext c (clearAddr (setHeadPhase .addressSend s))
    | .read => .refused .caseNotSelected

/-- `EV_ADDR_READ`: an empty buffer ends the Command by the Write path (rule R135). -/
def execEvAddrRead (s : State) : Host.Outcome State Fault Refusal :=
  onHead s fun c =>
    match c.dir with
    | .write => .refused .caseNotSelected
    | .read =>
      if c.buf.len.toNat = 0 then endCommand c false (clearAddr (setHeadPhase .addressSend s))
      else .next (clearAddr (setHeadPhase .addressSend s))

/-- `EV_BTF_WRITE` (rule R136). -/
def execEvBtfWrite (s : State) : Host.Outcome State Fault Refusal :=
  onHead s fun c =>
    match c.dir with
    | .write => transmitNext c (clearBtf (setHeadPhase .byteProcessing s))
    | .read => .refused .caseNotSelected

/-- The first writes of EV_BTF_READ: `BTF <- 0`, and AddressSend becomes ByteProcessing (rule R137). -/
def beginReceive (s : State) : State :=
  if headPhase s = .addressSend then setHeadPhase .byteProcessing (clearBtf s) else clearBtf s

/-- After the capture: when the byte just captured was the second-to-last, NACK the final byte and request STOP in
advance (rule R137). -/
def nackLast (c : DataCmd) (s : State) : State :=
  if s.cursor + 1 = c.buf.len.toNat then setHeadPhase .lastByte (requestStop (dropAck s)) else s

/-- `EV_BTF_READ` (rule R137). -/
def execEvBtfRead (s : State) : Host.Outcome State Fault Refusal :=
  onHead s fun c =>
    match c.dir with
    | .write => .refused .caseNotSelected
    | .read =>
      if headPhase s = .lastByte then .refused .caseNotSelected
      else capture c (nackLast c) (beginReceive s)

/-- The handler now waits for the STOP (rule R138). -/
def beginStopWait (s : State) : State := { s with waitStop := true }

/-- `EV_BTF_READ_LAST` (rule R138). -/
def execEvBtfReadLast (s : State) : Host.Outcome State Fault Refusal :=
  onHead s fun c =>
    match c.dir with
    | .write => .refused .caseNotSelected
    | .read =>
      if headPhase s = .lastByte then capture c beginStopWait (clearBtf s)
      else .refused .caseNotSelected

/-- `EV_NONE`: nothing (rule R132). -/
def execEvNone (s : State) : Host.Outcome State Fault Refusal := onHead s fun _ => .next s

/-- The case of the EVT table a handler entry runs (rule R87). -/
def runEvCase (c : EvCase) (s : State) : Host.Outcome State Fault Refusal :=
  match c with
  | .sb => execEvSb s
  | .addrWrite => execEvAddrWrite s
  | .addrRead => execEvAddrRead s
  | .btfWrite => execEvBtfWrite s
  | .btfRead => execEvBtfRead s
  | .btfReadLast => execEvBtfReadLast s
  | .none => execEvNone s

/-- `EV_IRQ`: one entry of the EV handler, which reads `len(Q)` and `SR1` and performs exactly one case
(rules R130, R131, R146). -/
def execEvIrq (s : State) : Host.Outcome State Fault Refusal :=
  onHead s fun c => runEvCase (selectEvt s.sr1 c.dir (decide (headPhase s = .lastByte))) s

/-- `EV_STOPWAIT`, the end of a Read after its STOP: no second STOP is requested (rule R139). DESIGN CHOICE (log
34): a NoOp at the head here sets FAULT_NOOP_AT_HEAD and nothing else, so that `wait_stop` stays 1; rule R139
expects a data Command, and rule R146 speaks of entries only. An empty queue is the fault of log 15. -/
def endStopWait (s : State) : Host.Outcome State Fault Refusal :=
  match s.queue with
  | [] => .fault .noNoopToFinalize
  | .noop :: _ => .next (setFault .noopAtHead s)
  | .data c :: _ => endCommand c true { s with waitStop := false }

end Sys2Proof.Machine
end

