-- ==== Sys2Proof/Machine/HostOps.lean ====
section
/-!
DEFINITION. The REQ host operations (40_host_operations): the three transfer requests and the two Future operations.
-/

namespace Sys2Proof.Machine

/-- `WRITE_ASYNC` (rule R104). -/
def execWriteAsync (addr : Byte) (wbuf : Buf) (s : State) : Host.Outcome State Fault Refusal :=
  .next (enqueue [⟨.write, addr, wbuf⟩] s)

/-- `READ_ASYNC` (rule R105). -/
def execReadAsync (addr : Byte) (rbuf : Buf) (s : State) : Host.Outcome State Fault Refusal :=
  .next (enqueue [⟨.read, addr, rbuf⟩] s)

/-- `WRITE_READ_ASYNC`: both Commands carry the same address (rule R106). -/
def execWriteReadAsync (addr : Byte) (wbuf rbuf : Buf) (s : State) : Host.Outcome State Fault Refusal :=
  .next (enqueue [⟨.write, addr, wbuf⟩, ⟨.read, addr, rbuf⟩] s)

/-- `FUTURE_READY`: one atomic read of `S[slot]` (rules R73, R107). -/
def execFutureReady (slot : Byte) (s : State) : Host.Outcome State Fault Refusal :=
  if slot.toNat < s.params.n then .next (returnPoll slot.toNat s) else .refused .badSlot

/-- A FUTURE_BLOCK that cannot return holds, with the context it was issued in (rules R108, R275; log 17). -/
def holdBlock (slot : Nat) (s : State) : State := { s with blocked := s.blocked ++ [⟨slot, s.critical, s.raised⟩] }

/-- `FUTURE_BLOCK`: returns at once on a terminal slot, else holds until the slot is terminal (rules R73, R108). -/
def execFutureBlock (slot : Byte) (s : State) : Host.Outcome State Fault Refusal :=
  if slot.toNat < s.params.n then
    if phaseTerminal (phaseAt s slot.toNat) then .next (returnPoll slot.toNat s)
    else .next (holdBlock slot.toNat s)
  else .refused .badSlot

end Sys2Proof.Machine
end

