-- ==== Sys2Proof/Machine/Dispatch.lean ====
section
/-!
DEFINITION. exec: one arm per constructor of Instr, each a call of that instruction's meaning.
-/

namespace Sys2Proof.Machine

def exec (i : Instr) (s : State) : Host.Outcome State Fault Refusal :=
  match i with
  | .writeAsync addr wbuf => Sys2Proof.Machine.execWriteAsync addr wbuf s
  | .readAsync addr rbuf => Sys2Proof.Machine.execReadAsync addr rbuf s
  | .writeReadAsync addr wbuf rbuf => Sys2Proof.Machine.execWriteReadAsync addr wbuf rbuf s
  | .futureReady slot => Sys2Proof.Machine.execFutureReady slot s
  | .futureBlock slot => Sys2Proof.Machine.execFutureBlock slot s
  | .evIrq => Sys2Proof.Machine.execEvIrq s
  | .erIrq => Sys2Proof.Machine.execErIrq s
  | .cmdNoop => Sys2Proof.Machine.execCmdNoop s
  | .cmdWrite addr buf => Sys2Proof.Machine.execCmdWrite addr buf s
  | .cmdRead addr buf => Sys2Proof.Machine.execCmdRead addr buf s
  | .evSb => Sys2Proof.Machine.execEvSb s
  | .evAddrWrite => Sys2Proof.Machine.execEvAddrWrite s
  | .evAddrRead => Sys2Proof.Machine.execEvAddrRead s
  | .evBtfWrite => Sys2Proof.Machine.execEvBtfWrite s
  | .evBtfRead => Sys2Proof.Machine.execEvBtfRead s
  | .evBtfReadLast => Sys2Proof.Machine.execEvBtfReadLast s
  | .evNone => Sys2Proof.Machine.execEvNone s
  | .erTimeout => Sys2Proof.Machine.execErTimeout s
  | .erPecerr => Sys2Proof.Machine.execErPecerr s
  | .erOvr => Sys2Proof.Machine.execErOvr s
  | .erAf => Sys2Proof.Machine.execErAf s
  | .erArlo => Sys2Proof.Machine.execErArlo s
  | .erBerr => Sys2Proof.Machine.execErBerr s
  | .erNone => Sys2Proof.Machine.execErNone s

end Sys2Proof.Machine
end

