-- ==== Sys2Proof/Machine/Agents.lean ====
section
/-!
DEFINITION. The agents (rule R6): when each has a step, what it fetches and decodes, and its step. An offer whose
agent has no step leaves the machine as it was (rule R12 "hold"; log 2).
-/

namespace Sys2Proof.Machine

/-- A decoder's rejection is a refusal of the same name (rules R73, R74, R112). -/
def refusalOf : DecodeError → Refusal
  | .reserved => .reserved
  | .badSlot => .badSlot
  | .badShape => .badShape

/-- The hold was issued where no handler step can run, so that none can lift it (rule R275). -/
def Hold.handlersOut (h : Hold) : Bool := h.inCritical || h.raised

/-- A task agent, or the code at or above the handlers' priority that runs in its place (log 35), has a step: no
handler is in its STOP wait (rule R241), and no FUTURE_BLOCK issued where no handler step can run holds (rule R275),
which by the model's choice keeps every other task from running (log 33). -/
def taskMayRun (s : State) : Bool := !s.waitStop && !s.blocked.any Hold.handlersOut

/-- A task's request word: fetched from the host port, decoded, run (rules R71, R74). -/
def runTask (w : Word) (wbuf rbuf : Buf) (s : State) : Host.Outcome State Fault Refusal :=
  if taskMayRun s then
    match decodeReq s.params.n .task w wbuf rbuf with
    | .ok i => exec i s
    | .error e => .refused (refusalOf e)
  else .next s

/-- A list at the raw enqueue port: each entry decoded, the shape checked, the list enqueued (rule R112; log 27). -/
def runRawEnqueue (entries : List CmdWords) (s : State) : Host.Outcome State Fault Refusal :=
  if taskMayRun s then
    match decodeEntries entries with
    | .error e => .refused (refusalOf e)
    | .ok ks =>
      match legalShape ks with
      | some cmds => .next (enqueue cmds s)
      | none => .refused (refusalOf .badShape)
  else .next s

/-- The holding FUTURE_BLOCK `h` can return: its caller can run, and the slot is terminal (rules R108, R275). DESIGN
CHOICE (logs 33, 35): while a critical section is held across steps, or code at or above the handlers' priority
runs, the caller of a FUTURE_BLOCK issued outside it cannot run. -/
def mayResume (h : Hold) (s : State) : Bool :=
  !s.waitStop && decide (h.inCritical = s.critical) && decide (h.raised = s.raised) && phaseTerminal (phaseAt s h.slot)

/-- The task of the `k`-th holding FUTURE_BLOCK reads its slot again (rule R108). -/
def runResume (k : Nat) (s : State) : State :=
  match s.blocked[k]? with
  | some h => if mayResume h s then { returnPoll h.slot s with blocked := s.blocked.eraseIdx k } else s
  | none => s

/-- The data Commands of the transactions in flight (rule R56). -/
def loanedCmds (s : State) : List DataCmd := s.loans.flatMap Loan.cmds

/-- A task read of `a` races: `a` lies in a Read buffer in flight (rule R56). -/
def loadRaces (a : Nat) (s : State) : Bool :=
  (loanedCmds s).any fun c => inBuf a c.buf && decide (c.dir = .read)

/-- A task write of `a` races: `a` lies in any buffer in flight (rule R56). -/
def storeRaces (a : Nat) (s : State) : Bool := (loanedCmds s).any fun c => inBuf a c.buf

/-- A task reads a byte of caller memory (rule R56; log 19). -/
def runLoad (a : Word) (s : State) : State :=
  if taskMayRun s then if loadRaces a.toNat s then setFault .bufferRace s else s else s

/-- A task writes a byte of caller memory (rule R56; log 19). -/
def runStore (a : Word) (b : Byte) (s : State) : State :=
  if taskMayRun s then
    if storeRaces a.toNat s then setFault .bufferRace s else { s with mem := memWrite s.mem a.toNat b }
  else s

/-- A task enters, or leaves, a critical section that spans steps (rules R242, R275; log 20). -/
def runCritical (on : Bool) (s : State) : State := if taskMayRun s then { s with critical := on } else s

/-- Code at or above the handlers' priority begins, or ends, where interrupts are not masked; not in the STOP wait,
which no handler's code preempts (rules R239, R242, R275; log 35). -/
def runRaised (on : Bool) (s : State) : State :=
  if taskMayRun s && !s.critical then { s with raised := on } else s

/-- The handler an entry instruction is can take its entry (rule R235). -/
def mayEnter (i : Instr) (s : State) : Bool := if i = .evIrq then evMayEnter s else erMayEnter s

/-- The interrupt mechanism presents a handler entry, taken under rule R235's conditions. -/
def runInterrupt (w : Word) (s : State) : Host.Outcome State Fault Refusal :=
  match decodeReq s.params.n .interrupt w default default with
  | .ok i => if mayEnter i s then exec i s else .next s
  | .error e => .refused (refusalOf e)

/-- An entry forced past rule R235's request, arming and critical section, as vectors E21 to E23, X15 and X16 have
it; not while the EV handler, or code at or above the handlers' priority, is executing (log 25). -/
def runForced (w : Word) (s : State) : Host.Outcome State Fault Refusal :=
  match decodeReq s.params.n .interrupt w default default with
  | .ok i => if s.waitStop || s.raised then .next s else exec i s
  | .error e => .refused (refusalOf e)

/-- The EV handler leaves its STOP wait once `CR1.STOP = 0` (rule R139). -/
def runStopWait (s : State) : Host.Outcome State Fault Refusal :=
  if s.waitStop && !s.cr1.stop then endStopWait s else .next s

/-- The step of one agent. -/
def runMove (m : Move) (s : State) : Host.Outcome State Fault Refusal :=
  match m with
  | .task w wbuf rbuf => runTask w wbuf rbuf s
  | .rawEnqueue entries => runRawEnqueue entries s
  | .resume k => .next (runResume k s)
  | .load a => .next (runLoad a s)
  | .store a b => .next (runStore a b s)
  | .enterCritical => .next (runCritical true s)
  | .exitCritical => .next (runCritical false s)
  | .enterRaised => .next (runRaised true s)
  | .exitRaised => .next (runRaised false s)
  | .interrupt w => runInterrupt w s
  | .stopWait => runStopWait s
  | .bus b => .next (busStep b s)

/-- The step of one offer. -/
def runOffer (o : Offer) (s : State) : Host.Outcome State Fault Refusal :=
  match o with
  | .agent m => runMove m s
  | .forced w => runForced w s

/-- The offer whose turn it is: the first one waiting, else one drawn from the free environment; and the state with
that offer used up (log 1). -/
def takeOffer (s : State) : Offer × State :=
  match s.script with
  | o :: rest => (o, { s with script := rest })
  | [] => (.agent (Config.environment s.tick), { s with tick := s.tick + 1 })

/-! ### Placing one table word where the next step fetches it (log 24) -/

/-- An offer put before those waiting. -/
def offerNext (o : Offer) (s : State) : State := { s with script := o :: s.script }

/-- No handler, and no other code at the handlers' priority, is executing, so an entry can run (rules R239, R241). -/
def leaveHandlers (s : State) : State := { s with waitStop := false, raised := false }

/-- A task can run: no STOP wait, and no FUTURE_BLOCK held where no handler step can run (rules R241, R275). -/
def freeTasks (s : State) : State :=
  { s with waitStop := false, blocked := s.blocked.filter (fun h => !h.handlersOut) }

/-- A queue an EVT word can be decoded over: one whose head is a Write, the one the queue has or an empty Write. -/
def withWriteHead (s : State) : State :=
  match s.queue with
  | .data ⟨.write, _, _⟩ :: _ => s
  | _ => { s with queue := group [⟨.write, 0, default⟩] }

/-- Place a request word: a task's at the host port, a handler entry's at the interrupt mechanism, which then enters
even where nothing is requested. -/
def placeReq (w : Word) (s : State) : State :=
  match decodeReq s.params.n .interrupt w default default with
  | .ok _ => offerNext (.forced w) (leaveHandlers s)
  | .error _ => offerNext (.agent (.task w default default)) (freeTasks s)

/-- Place a word of `SR1` and have the handler whose request word is `entry` enter on a head transaction. -/
def placeStatus (entry w : Word) (s : State) : State :=
  offerNext (.forced entry) { withWriteHead (leaveHandlers s) with sr1 := sr1OfWord s.params.layout w }

/-- Place a queue entry at the raw enqueue port. -/
def placeCmd (c : CmdWords) (s : State) : State := offerNext (.agent (.rawEnqueue [c])) (freeTasks s)

/-- Place a table word by the place its width names (log 24). -/
def placeWord (nbits w : Nat) (s : State) : State :=
  match nbits with
  | 8 => placeStatus (reqWord 8 0) (BitVec.ofNat 32 w) s
  | 16 => placeStatus (reqWord 9 0) (BitVec.ofNat 32 w) s
  | 32 => placeReq (BitVec.ofNat 32 w) s
  | 96 => placeCmd ⟨BitVec.ofNat 32 w, BitVec.ofNat 32 (w / 2 ^ 32), BitVec.ofNat 32 (w / 2 ^ 64)⟩ s
  | _ => s

end Sys2Proof.Machine
end

