-- ==== Sys2Proof/Machine/Step.lean ====
section
/-!
DEFINITION. One step of the machine: one atomic step of one agent (rules R6, R59).
-/

namespace Sys2Proof.Machine

/-- One step: the offer whose turn it is, run by its agent. -/
def step (s : State) : Host.Outcome State Fault Refusal := runOffer (takeOffer s).1 (takeOffer s).2

/-- `s` with one table word placed where the next step fetches it, and that fetch next (log 24). -/
def State.withFetchWord (s : State) (nbits w : Nat) : State := placeWord nbits w s

end Sys2Proof.Machine
end

