-- ==== Sys2Proof/Safety.lean ====
section
/-!
DEFINITION. What counts as a sound state: the invariants of 10_state section 4 under any bus (`Inv`), and what holds
besides on the reference bus without injected faults (`Calm`, rules R211, R285), with the work left on it.
-/

namespace Sys2Proof.Safety

open Sys2Proof.Machine

/-- `Q` is a concatenation of transactions `[Write, NoOp]`, `[Read, NoOp]`, `[Write, Read, NoOp]` (rule R36). The first
one may have lost its Write, which leaves one of the same forms; it has not lost all its data Commands (rule R40). -/
def wellGrouped : List Command → Bool
  | [] => true
  | .data _ :: .noop :: r => wellGrouped r
  | .data c :: .data d :: .noop :: r => decide (c.dir = .write) && decide (d.dir = .read) && wellGrouped r
  | _ => false

/-- The invariant of every machine, whatever its bus does. -/
structure Inv (s : State) : Prop where
  /-- Legal parameters (rule R7). -/
  params : s.params.wf = true
  /-- One Protocol State per slot (rule R24). -/
  slots : s.slots.length = s.params.n
  /-- `0 <= head < N` (rule R25). -/
  head : s.head < s.params.n
  /-- Queue shape and head kind (rules R36, R40). -/
  shape : wellGrouped s.queue = true
  /-- `len(Q) <= N` (rules R22, R37). -/
  capacity : s.queue.length ≤ s.params.n
  /-- `len(Q) = 0` if and only if `armed = 0` (rule R38). -/
  armed : s.armed = !s.queue.isEmpty
  /-- `len(Q) = 0` implies `cursor = 0` and `wait_stop = 0` (rule R38). -/
  idle : s.queue = [] → s.cursor = 0 ∧ s.waitStop = false
  /-- `cursor <= Q[0].len` (rule R41). -/
  cursor : ∀ c r, s.queue = .data c :: r → s.cursor ≤ c.buf.len.toNat
  /-- The STOP wait is at the end of a Read (rule R28). -/
  waiting : s.waitStop = true → ∃ c r, s.queue = .data c :: r ∧ c.dir = .read
  /-- The slot of a queued transaction is not terminal (rules R39, R175). -/
  queued : ∀ j, j < noops s.queue → phaseTerminal (phaseAt s ((s.head + j) % s.params.n)) = false
  /-- The slot of a transaction behind the head one is Begin since its enqueue (rule R141). -/
  fresh : ∀ j, 0 < j → j < noops s.queue → phaseAt s ((s.head + j) % s.params.n) = .begin
  /-- `Bus` and `Busy` are never stored (rule R232). -/
  errors : ∀ i, phaseAt s i ≠ .fail .bus ∧ phaseAt s i ≠ .fail .busy
  /-- No NoOp is found at the head and no Read ends before a data Command (rules R140, R146). -/
  faults : s.faults.noopAtHead = false ∧ s.faults.readNotLast = false
  /-- Caller memory is in its canonical form. -/
  mem : Memory.wf s.mem = true

/-- The error flags a reference bus without `inject` never sets (rule R209). -/
def noInjected (f : Sr1) : Bool := !f.timeout && !f.pecerr && !f.ovr && !f.arlo && !f.berr

/-- Where the reference bus can be when no Command is on the wire. -/
def restingMode (m : BusMode) : Bool := decide (m = .idle) || decide (m = .txIdle)

/-- The reference bus's mode after an acknowledged address byte (rule R204). -/
def addressedMode : Direction → BusMode
  | .write => .txIdle
  | .read => .rx

/-- Is a byte in flight? -/
def transmitting : BusMode → Bool
  | .idle => false
  | .addrPending => false
  | .addrInFlight _ => false
  | .txIdle => false
  | .txInFlight _ => true
  | .rx => false
  | .rxDone => false

/-- The head data Command `c` between its START and its end: how phase, cursor, flags, control bits and the mode of the
reference bus go together (rules R133 to R139, R149, R203 to R207). -/
def headCalm (c : DataCmd) (s : State) : Prop :=
  if s.waitStop then
    c.dir = .read ∧ headPhase s = .lastByte ∧ s.cursor = c.buf.len.toNat ∧ s.cr1.start = false ∧
      s.sr1.sb = false ∧ s.sr1.addr = false ∧ s.sr1.btf = false ∧ s.sr1.af = false ∧
      ((s.mode = .rxDone ∧ s.cr1.stop = true) ∨ (s.mode = .idle ∧ s.cr1.stop = false))
  else
    match headPhase s with
    | .begin =>
      s.cursor = 0 ∧ s.cr1.ack = true ∧ s.sr1.addr = false ∧ s.sr1.btf = false ∧ s.sr1.af = false ∧
        ((s.sr1.sb = false ∧ s.cr1.start = true ∧ restingMode s.mode = true) ∨
          (s.sr1.sb = true ∧ s.cr1.start = false ∧ s.cr1.stop = false ∧ s.mode = .addrPending))
    | .startGenerated =>
      s.cursor = 0 ∧ s.cr1.ack = true ∧ s.cr1.start = false ∧ s.cr1.stop = false ∧ s.sr1.sb = false ∧
        s.sr1.btf = false ∧
        ((s.sr1.addr = false ∧ s.sr1.af = false ∧ s.mode = .addrInFlight (addrByte c.addr c.dir)) ∨
          (s.sr1.addr = true ∧ s.sr1.af = false ∧ s.mode = addressedMode c.dir) ∨
          (s.sr1.addr = false ∧ s.sr1.af = true ∧ s.mode = .idle))
    | .addressSend =>
      s.cr1.ack = true ∧ s.cr1.start = false ∧ s.cr1.stop = false ∧ s.sr1.sb = false ∧ s.sr1.addr = false ∧
        moving c s
    | .byteProcessing =>
      s.cr1.ack = true ∧ s.cr1.start = false ∧ s.cr1.stop = false ∧ s.sr1.sb = false ∧ s.sr1.addr = false ∧
        moving c s
    | .lastByte =>
      c.dir = .read ∧ s.cursor + 1 = c.buf.len.toNat ∧ s.cr1.ack = false ∧ s.cr1.start = false ∧
        s.sr1.sb = false ∧ s.sr1.addr = false ∧ s.sr1.af = false ∧
        ((s.sr1.btf = false ∧ s.mode = .rx ∧ s.cr1.stop = true) ∨
          (s.sr1.btf = true ∧ s.mode = .rxDone ∧ s.cr1.stop = true) ∨
          (s.sr1.btf = true ∧ s.mode = .idle ∧ s.cr1.stop = false))
    | .finished => False
    | .fail _ => False
where
  /-- Data bytes are being moved. -/
  moving (c : DataCmd) (s : State) : Prop :=
    match c.dir with
    | .write =>
      0 < s.cursor ∧
        ((s.sr1.btf = false ∧ s.sr1.af = false ∧ transmitting s.mode = true) ∨
          (s.sr1.btf = true ∧ s.sr1.af = false ∧ s.mode = .txIdle) ∨
          (s.sr1.btf = false ∧ s.sr1.af = true ∧ s.mode = .idle))
    | .read => s.cursor + 1 < c.buf.len.toNat ∧ s.sr1.af = false ∧ s.mode = .rx

/-- The bus with no Command on the wire. -/
def idleCalm (s : State) : Prop :=
  s.cr1.start = false ∧ s.sr1.sb = false ∧ s.sr1.addr = false ∧ s.sr1.btf = false ∧ s.sr1.af = false ∧
    restingMode s.mode = true

/-- The state of a run on the reference bus with no `inject` step and no Read shorter than two bytes (rules R211, R277,
R280, R285). -/
structure Calm (s : State) : Prop where
  inv : Inv s
  reference : s.params.bus = .reference
  reads : ∀ c, Command.data c ∈ s.queue → c.dir = .read → 2 ≤ c.buf.len.toNat
  noInjected : noInjected s.sr1 = true
  noOverflow : s.faults.rxOverflow = false
  onHead : ∀ c r, s.queue = .data c :: r → headCalm c s
  onIdle : s.queue = [] → idleCalm s

/-- A buffer reference a caller may give for a Read (rules R277, R280). -/
def readable (b : Buf) : Bool := decide (2 ≤ b.len.toNat)

/-- The moves of a run under `WellBehavedBus` (rule R211) whose callers respect rules R277 and R280. -/
def calmMove : Move → Bool
  | .task w _ rbuf => readable rbuf || !(decide (reqOp w = 2) || decide (reqOp w = 3))
  | .rawEnqueue entries =>
    entries.all fun e => readable ⟨e.w1, e.w2⟩ || decide (cmdTag e.w0 ≠ 2)
  | .resume _ => true
  | .load _ => true
  | .store _ _ => true
  | .enterCritical => true
  | .exitCritical => true
  | .enterRaised => true
  | .exitRaised => true
  | .interrupt _ => true
  | .stopWait => true
  | .bus (.permissive _ _ _ _) => false
  | .bus .start => true
  | .bus (.address _) => true
  | .bus (.transmit _) => true
  | .bus (.receive _) => true
  | .bus .stop => true
  | .bus (.inject _) => false

/-- The moves of the handlers and of the bus agent, on which progress rests (rule R285 (b)). -/
def servingMove : Move → Bool
  | .task _ _ _ => false
  | .rawEnqueue _ => false
  | .resume _ => false
  | .load _ => false
  | .store _ _ => false
  | .enterCritical => false
  | .exitCritical => false
  | .enterRaised => false
  | .exitRaised => false
  | .interrupt _ => true
  | .stopWait => true
  | .bus _ => true

/-- Steps left for a Command not yet started. -/
def freshWork : Command → Nat
  | .noop => 0
  | .data c => 2 * c.buf.len.toNat + 6

/-- Steps left for the head Command, the STOP apart. -/
def headWork (c : DataCmd) (s : State) : Nat :=
  let left := 2 * (c.buf.len.toNat - s.cursor)
  if s.waitStop then 1
  else
    match headPhase s with
    | .begin => if s.cr1.start then left + 6 else left + 5
    | .startGenerated => if s.sr1.addr || s.sr1.af then left + 3 else left + 4
    | .lastByte => if s.sr1.btf then 2 else 3
    | _ =>
      match c.dir with
      | .write => if s.sr1.btf || s.sr1.af then left + 2 else left + 3
      | .read => if s.sr1.btf then left + 1 else left + 2

/-- A bound on the handler and bus steps until `Q` is empty and no STOP is pending (rule R285). -/
def work (s : State) : Nat :=
  (if s.cr1.stop then 1 else 0) +
    (match s.queue with
      | .data c :: r => headWork c s + (r.map freshWork).sum
      | _ => 0)

end Sys2Proof.Safety
end

