-- ==== Sys2Proof/Certificates/Slice0/Obligations.lean ====
section
/-!
DEFINITION. The statements for the provers. Each docstring names the rule of spec/ it formalises, or says that it is
derived and from what. The definitions before them only name shapes the statements share.
-/

namespace Sys2Proof.Spec

open Sys2Proof.Machine

/-- The head transaction is over with verdict `v`, `rest` being the queue behind its NoOp: the verdict is recorded,
the cursor is 0, `head` advances, and the next transaction is started or the vectors are masked (rules R140, R141,
R180). -/
def transactionOver (v : Phase) (rest : List Command) (s : State) : State :=
  if rest = [] then
    { s with
      queue := []
      cursor := 0
      slots := s.slots.set s.head v
      head := (s.head + 1) % s.params.n
      armed := false }
  else
    { s with
      queue := rest
      cursor := 0
      slots := s.slots.set s.head v
      head := (s.head + 1) % s.params.n
      cr1 := { s.cr1 with ack := true, start := true } }

/-- The head Command is over and `d` of the same transaction is next: a repeated START, the phase Begin again
(rule R140). -/
def commandOver (d : DataCmd) (rest : List Command) (s : State) : State :=
  { s with
    queue := .data d :: rest
    cursor := 0
    slots := s.slots.set s.head .begin
    cr1 := { s.cr1 with ack := true, start := true } }

/-- The data Commands an instruction enqueues, for the five that enqueue (rules R104, R105, R106). -/
def enqueues : Instr → Option (List DataCmd)
  | .writeAsync a wb => some [⟨.write, a, wb⟩]
  | .readAsync a rb => some [⟨.read, a, rb⟩]
  | .writeReadAsync a wb rb => some [⟨.write, a, wb⟩, ⟨.read, a, rb⟩]
  | .cmdWrite a b => some [⟨.write, a, b⟩]
  | .cmdRead a b => some [⟨.read, a, b⟩]
  | _ => none

/-- The Error an ER case reports when the head slot is in phase `p` (rules R171 to R176); the others report none. -/
def reports (p : Phase) : Instr → Option BusError
  | .erTimeout => some .timeout
  | .erPecerr => some .crc
  | .erOvr => some .overrun
  | .erAf =>
    match p with
    | .startGenerated => some (.noAcknowledge .address)
    | .addressSend => some (.noAcknowledge .data)
    | .byteProcessing => some (.noAcknowledge .data)
    | .lastByte => some (.noAcknowledge .data)
    | _ => some (.noAcknowledge .unknown)
  | .erArlo => some .arbitrationLoss
  | _ => none

/-- The status flags after an ER case: its own cleared, no other (rule R170). -/
def serviced (f : Sr1) : Instr → Sr1
  | .erTimeout => { f with timeout := false }
  | .erPecerr => { f with pecerr := false }
  | .erOvr => { f with ovr := false }
  | .erAf => { f with af := false }
  | .erArlo => { f with arlo := false }
  | .erBerr => { f with berr := false }
  | _ => f

/-- The rows of the EV handler that examine the head Command: the entry and the seven cases. -/
def isEvent : Instr → Bool
  | .evIrq => true
  | .evSb => true
  | .evAddrWrite => true
  | .evAddrRead => true
  | .evBtfWrite => true
  | .evBtfRead => true
  | .evBtfReadLast => true
  | .evNone => true
  | _ => false

/-- The rows of the ER handler: the entry and the seven cases. -/
def isError : Instr → Bool
  | .erIrq => true
  | .erTimeout => true
  | .erPecerr => true
  | .erOvr => true
  | .erAf => true
  | .erArlo => true
  | .erBerr => true
  | .erNone => true
  | _ => false

/-- The rows of the two Future operations. -/
def isFuture : Instr → Bool
  | .futureReady _ => true
  | .futureBlock _ => true
  | _ => false

/-- What no instruction writes: parameters, `CR1.PE` and the unused `CR1` bits, `CR2`, `SR2`, the unused `SR1` bits,
the received byte, the wire log, `held`, the critical section, the caller's priority, and the offers (rules R30,
R83, R84, R85, R200, R272). -/
def sameOutside (s t : State) : Prop :=
  t.params = s.params ∧ t.cr1.pe = s.cr1.pe ∧ t.cr1.other = s.cr1.other ∧ t.cr2 = s.cr2 ∧ t.sr2 = s.sr2 ∧
    t.sr1.other = s.sr1.other ∧ t.drRx = s.drRx ∧ t.wire = s.wire ∧ t.held = s.held ∧
    t.critical = s.critical ∧ t.raised = s.raised ∧ t.script = s.script ∧ t.tick = s.tick

/-- What no handler writes besides: the tasks' results, loans and holds (rules R17, R56, R108). -/
def sameTasks (s t : State) : Prop := t.results = s.results ∧ t.loans = s.loans ∧ t.blocked = s.blocked

/-- The buffers of the queued Commands lie in the address space (rule R8). -/
def buffersInSpace (q : List Command) : Prop :=
  ∀ c, Command.data c ∈ q → c.buf.base.toNat + c.buf.len.toNat ≤ 2 ^ 32

end Sys2Proof.Spec

open Sys2Proof Sys2Proof.Machine Sys2Proof.Safety Sys2Proof.Spec

/-! ### Encodings (30_encoding) -/

/-- Derived from rules R71 to R77, R87, R88, R89: no bit of an encoding is dropped, for every instruction, every
operand and every layout. -/
def Obligations.DecodeOfEncodeIsTheInstruction : Prop :=
  ∀ (p : Params) (i : Instr), p.wf = true → i.wf p.n = true → decode p (encode p i) = .ok i

/-- Derived from rules R72, R73, R74: `OP` is bits 3:0, `ARG8` bits 11:4, and what each pair decodes to for a task
and for the interrupt mechanism, every other pair being rejected as reserved. That the interrupt mechanism's OP 1 to
5 is rejected is the model's choice (log 31). -/
def Obligations.RequestWordFieldsDecode : Prop :=
  ∀ (n : Nat) (w : Word) (wb rb : Buf), w.toNat < 2 ^ 12 →
    (w.toNat % 16 = 1 → decodeReq n .task w wb rb = .ok (.writeAsync (BitVec.ofNat 8 (w.toNat / 16)) wb)) ∧
    (w.toNat % 16 = 2 → decodeReq n .task w wb rb = .ok (.readAsync (BitVec.ofNat 8 (w.toNat / 16)) rb)) ∧
    (w.toNat % 16 = 3 → decodeReq n .task w wb rb = .ok (.writeReadAsync (BitVec.ofNat 8 (w.toNat / 16)) wb rb)) ∧
    (w.toNat % 16 = 4 → decodeReq n .task w wb rb =
      if w.toNat / 16 < n then .ok (.futureReady (BitVec.ofNat 8 (w.toNat / 16))) else .error .badSlot) ∧
    (w.toNat % 16 = 5 → decodeReq n .task w wb rb =
      if w.toNat / 16 < n then .ok (.futureBlock (BitVec.ofNat 8 (w.toNat / 16))) else .error .badSlot) ∧
    (w.toNat % 16 = 0 ∨ 6 ≤ w.toNat % 16 → decodeReq n .task w wb rb = .error .reserved) ∧
    (w.toNat = 8 → decodeReq n .interrupt w wb rb = .ok .evIrq) ∧
    (w.toNat = 9 → decodeReq n .interrupt w wb rb = .ok .erIrq) ∧
    (w.toNat ≠ 8 ∧ w.toNat ≠ 9 → decodeReq n .interrupt w wb rb = .error .reserved)

/-- Derived from rules R73, R74: a task's word with `RSV != 0` or a reserved `OP`, a handler entry issued by a task,
and any word of the interrupt mechanism but the two entries with `ARG8 = 0`, is refused as reserved; the refusal
gives no next state, so no state is changed. That OP 1 to 5 from the interrupt mechanism is among them is the
model's choice (log 31). -/
def Obligations.ReservedRequestsAreRefused : Prop :=
  ∀ (s : State) (w : Word) (wb rb : Buf),
    (taskMayRun s = true → (2 ^ 12 ≤ w.toNat ∨ w.toNat % 16 = 0 ∨ 6 ≤ w.toNat % 16) →
      runMove (.task w wb rb) s = .refused .reserved) ∧
    (w.toNat ≠ 8 → w.toNat ≠ 9 → runMove (.interrupt w) s = .refused .reserved)

/-- Rule R87, with the default layout: the EV entry selects exactly one case by the table's match and mask, first
match wins, and runs it; before the table, an empty queue selects EV_IDLE, which clears the highest-priority flag.
-/
def Obligations.EvEntryFollowsTheTable : Prop :=
  (∀ (w : Word) (d : Direction) (last : Bool),
    (w &&& 0x1 = 0x1 → decodeEvt .default w d last = .evSb) ∧
    (w &&& 0x3 = 0x2 → decodeEvt .default w .write last = .evAddrWrite) ∧
    (w &&& 0x3 = 0x2 → decodeEvt .default w .read last = .evAddrRead) ∧
    (w &&& 0x7 = 0x4 → decodeEvt .default w .write last = .evBtfWrite) ∧
    (w &&& 0x7 = 0x4 → decodeEvt .default w .read false = .evBtfRead) ∧
    (w &&& 0x7 = 0x4 → decodeEvt .default w .read true = .evBtfReadLast) ∧
    (w &&& 0x7 = 0x0 → decodeEvt .default w d last = .evNone)) ∧
  (∀ (s : State) (c : DataCmd) (r : List Command), s.params.layout = .default → s.queue = .data c :: r →
    exec .evIrq s = exec (decodeEvt .default (sr1Word s) c.dir (decide (headPhase s = .lastByte))) s) ∧
  (∀ s : State, s.queue = [] → exec .evIrq s =
    .next { s with
      sr1 :=
        if s.sr1.sb then { s.sr1 with sb := false }
        else if s.sr1.addr then { s.sr1 with addr := false }
        else { s.sr1 with btf := false } })

/-- Rule R88, with the default layout: the ER entry selects exactly one case by the table's match and mask, first
match wins, and runs it. -/
def Obligations.ErEntryFollowsTheTable : Prop :=
  (∀ w : Word,
    (w &&& 0x4000 = 0x4000 → decodeErr .default w = .erTimeout) ∧
    (w &&& 0x5000 = 0x1000 → decodeErr .default w = .erPecerr) ∧
    (w &&& 0x5800 = 0x0800 → decodeErr .default w = .erOvr) ∧
    (w &&& 0x5C00 = 0x0400 → decodeErr .default w = .erAf) ∧
    (w &&& 0x5E00 = 0x0200 → decodeErr .default w = .erArlo) ∧
    (w &&& 0x5F00 = 0x0100 → decodeErr .default w = .erBerr) ∧
    (w &&& 0x5F00 = 0x0000 → decodeErr .default w = .erNone)) ∧
  (∀ s : State, s.params.layout = .default → exec .erIrq s = exec (decodeErr .default (sr1Word s)) s)

/-- Derived from rule R76: the three words of a queue entry, and that they are read back. That a word 0 with tag
`0b11` is rejected is the model's choice (log 26): rule R77 says only that a queue never holds it. -/
def Obligations.QueueEntryWords : Prop :=
  (encodeCommand .noop = ⟨0, 0, 0⟩) ∧
  (∀ (a : Byte) (b : Buf),
    (encodeCommand (.data ⟨.write, a, b⟩)).w0.toNat = 4 * a.toNat + 1 ∧
    (encodeCommand (.data ⟨.read, a, b⟩)).w0.toNat = 4 * a.toNat + 2 ∧
    (∀ d, (encodeCommand (.data ⟨d, a, b⟩)).w1 = b.base ∧ (encodeCommand (.data ⟨d, a, b⟩)).w2 = b.len)) ∧
  (∀ k : Command, decodeCommand (encodeCommand k) = .ok k) ∧
  (∀ c : CmdWords, c.w0.toNat % 4 = 3 → decodeCommand c = .error .reserved)

/-- Derived from rules R78, R79, R80, R81: the value encodings number by number, with the fields' places, and that
they are read back from their bytes. -/
def Obligations.ValueEncodings : Prop :=
  ([.begin, .startGenerated, .addressSend, .byteProcessing, .lastByte, .finished].map encodePhase = [0, 1, 2, 3, 4, 5]) ∧
  ([.overrun, .noAcknowledge .unknown, .noAcknowledge .address, .noAcknowledge .data, .timeout, .bus, .crc,
    .arbitrationLoss, .busy].map ecode = [0, 1, 2, 3, 4, 5, 6, 7, 8]) ∧
  (∀ n, 9 ≤ n → errorOfEcode n = none) ∧
  encodePoll .pending = 0 ∧ encodePoll .readyOk = 1 ∧
  (∀ p : Phase, decodePhase (encodePhase p) = some p ∧ (encodePhase p).toNat < 128) ∧
  (∀ e : BusError, (encodePhase (.fail e)).toNat = 6 + 8 * ecode e ∧ errorOfEcode (ecode e) = some e ∧
    (encodePoll (.readyErr e)).toNat = 2 + 4 * ecode e) ∧
  (∀ v : Poll, decodePoll (encodePoll v) = some v ∧ (encodePoll v).toNat < 64) ∧
  (∀ k : Nat, k < 256 → (encodeEnq (.ok k)).toNat = k ∧ decodeEnq (encodeEnq (.ok k)) = some (.ok k)) ∧
  encodeEnq .busy = 0x100 ∧ decodeEnq 0x100 = some .busy

/-- Rule R82: the address byte, bit 7 of the argument discarded, and that it is what the engine writes to `DR` after a
START. -/
def Obligations.AddressByteDropsBitSeven : Prop :=
  (∀ a : Byte,
    (addrByte a .write).toNat = 2 * a.toNat % 256 ∧
    (addrByte a .read).toNat = (2 * a.toNat + 1) % 256 ∧
    (∀ d, addrByte (a ^^^ 0x80) d = addrByte a d)) ∧
  (∀ (s : State) (c : DataCmd) (r : List Command), s.queue = .data c :: r →
    ∃ t, exec .evSb s = .next t ∧ t.drTx = addrByte c.addr c.dir)

/-- Derived from rules R72, R76, R87, R88 and the words of 95_test_vectors: words written out by hand decode to what
they stand for. -/
def Obligations.HandWrittenWordsDecode : Prop :=
  (∀ wb rb, decodeReq 4 .task 0x000003C1 wb rb = .ok (.writeAsync 0x3C wb)) ∧
  (∀ wb rb, decodeReq 4 .task 0x00000683 wb rb = .ok (.writeReadAsync 0x68 wb rb)) ∧
  (∀ wb rb, decodeReq 4 .task 0x00000035 wb rb = .ok (.futureBlock 3)) ∧
  (∀ wb rb, decodeReq 4 .task 0x00000044 wb rb = .error .badSlot) ∧
  decodeCmd ⟨0x000000F1, 0x20000000, 2⟩ = .ok (.cmdWrite 0x3C ⟨0x20000000, 2⟩) ∧
  decodeEvt .default 0x0004 .read true = .evBtfReadLast ∧
  decodeErr .default 0x0C00 = .erOvr

/-- Derived from rules R83, R85 (`REG_LAYOUT` is a parameter): with any usable layout each of the nine flags written
to the status word is read back from it, and no bit of the word is lost. -/
def Obligations.StatusWordKeepsEveryFlag : Prop :=
  ∀ (L : RegLayout), L.wf = true →
    (∀ f : Sr1,
      let g := sr1OfWord L (sr1ToWord L f)
      g.sb = f.sb ∧ g.addr = f.addr ∧ g.btf = f.btf ∧ g.timeout = f.timeout ∧ g.pecerr = f.pecerr ∧ g.ovr = f.ovr ∧
        g.af = f.af ∧ g.arlo = f.arlo ∧ g.berr = f.berr) ∧
    (∀ w : Word, sr1ToWord L (sr1OfWord L w) = w)

/-- Derived from rules R83 to R86, default layout: the bits of `CR1`, `CR2`, `SR1` and `DR` and the word `SR2` at
their offsets, and that clearing any of the six error flags writes 0 to its bit only. -/
def Obligations.ControllerWordsHaveTheDefaultLayout : Prop :=
  ∀ s : State, s.params.layout = .default →
    (∃ w, regRead s 0x00 = some w ∧ w.getLsbD 0 = s.cr1.pe ∧ w.getLsbD 8 = s.cr1.start ∧
      w.getLsbD 9 = s.cr1.stop ∧ w.getLsbD 10 = s.cr1.ack ∧
      ∀ i, i ≠ 0 → i ≠ 8 → i ≠ 9 → i ≠ 10 → w.getLsbD i = s.cr1.other.getLsbD i) ∧
    (∃ w, regRead s 0x04 = some w ∧ w.getLsbD 8 = s.cr2.iterren ∧ w.getLsbD 9 = s.cr2.itevten ∧
      w.getLsbD 10 = s.cr2.itbufen) ∧
    regRead s 0x10 = some (s.drRx.setWidth 32) ∧
    (∃ w, regRead s 0x14 = some w ∧ w.getLsbD 0 = s.sr1.sb ∧ w.getLsbD 1 = s.sr1.addr ∧ w.getLsbD 2 = s.sr1.btf ∧
      w.getLsbD 8 = s.sr1.berr ∧ w.getLsbD 9 = s.sr1.arlo ∧ w.getLsbD 10 = s.sr1.af ∧ w.getLsbD 11 = s.sr1.ovr ∧
      w.getLsbD 12 = s.sr1.pecerr ∧ w.getLsbD 14 = s.sr1.timeout) ∧
    regRead s 0x18 = some s.sr2 ∧
    sr1Word (clearErr .timeout s) = sr1Word s &&& 0xFFFFBFFF ∧
    sr1Word (clearErr .pecerr s) = sr1Word s &&& 0xFFFFEFFF ∧
    sr1Word (clearErr .ovr s) = sr1Word s &&& 0xFFFFF7FF ∧
    sr1Word (clearErr .af s) = sr1Word s &&& 0xFFFFFBFF ∧
    sr1Word (clearErr .arlo s) = sr1Word s &&& 0xFFFFFDFF ∧
    sr1Word (clearErr .berr s) = sr1Word s &&& 0xFFFFFEFF

/-! ### Reset (10_state section 6) -/

/-- Derived from rule R47: what reset leaves of every piece of state for which rule R47 gives a value, for every
parameters. (`CR1.PE = 1` is R47's value once the platform has initialised the controller.) -/
def Obligations.ResetLeavesTheSpecsValues : Prop :=
  ∀ p : Params,
    let s := State.resetWith p
    s.queue = [] ∧ s.cursor = 0 ∧ s.slots.length = p.n ∧ (∀ i, phaseAt s i = .begin) ∧ s.head = 0 ∧
      s.armed = false ∧ s.waitStop = false ∧ s.faults = ⟨false, false, false, false⟩ ∧
      s.cr1.pe = true ∧ s.cr1.start = false ∧ s.cr1.stop = false ∧
      evRequested s = false ∧ erRequested s = false ∧ s.held = false ∧ s.mode = .idle ∧ s.wire = []

/-- Derived from rules R36 to R41 and R47: the invariants hold at reset, and on the reference bus so does what holds
there besides. -/
def Obligations.ResetIsSound : Prop :=
  ∀ p : Params, p.wf = true →
    Inv (State.resetWith p) ∧ (p.bus = .reference → Calm (State.resetWith p))

/-! ### Every step -/

/-- Derived from rules R36 to R41, R39, R175, R232: every step of every agent keeps the invariants, whatever the bus
does and whoever steps. -/
def Obligations.StepKeepsTheInvariants : Prop :=
  ∀ s t : State, Inv s → step s = .next t → Inv t

/-- Derived from rules R149, R203 to R211, R277: on the reference bus, with no injected fault and no Read shorter than
two bytes, every step keeps phase, cursor, flags, control bits and bus together, and no model fault of the handlers
arises. -/
def Obligations.WellBehavedBusStaysCalm : Prop :=
  ∀ (s t : State) (m : Move), Calm s → (takeOffer s).1 = .agent m → calmMove m = true → step s = .next t → Calm t

/-- Derived from rules R211, R285: on the well-behaved bus every handler or bus step either does nothing or brings the
queue nearer to empty, so no transaction is served for ever. -/
def Obligations.EveryServingStepUsesUpWork : Prop :=
  ∀ (s t : State) (m : Move), Calm s → servingMove m = true → calmMove m = true → runMove m s = .next t →
    t = s ∨ work t < work s

/-- Derived from rules R211, R285: on the well-behaved bus, while a transaction is queued, no task holds the critical
section and no code runs at or above the handlers' priority (rule R275), some handler or the bus agent has a step that
brings the queue nearer to empty; so nothing deadlocks. -/
def Obligations.SomebodyServesTheQueue : Prop :=
  ∀ s : State, Calm s → s.queue ≠ [] → s.critical = false → s.raised = false → buffersInSpace s.queue →
    ∃ (m : Move) (t : State), servingMove m = true ∧ calmMove m = true ∧ runMove m s = .next t ∧ work t < work s

/-- Derived from rules R6, R59, R71, R74, R130, R170: a step runs the instruction its offer decodes to, with the
offer used up; a word the decoder rejects is refused by the same name. The offers are the model's choice (log 1). So
is the fourth clause, one entry at the raw enqueue port: rule R112 gives the lists a port accepts, the port itself
is log 27, and that a CMD row is run as the enqueue of rule R104 or R105 is log 13. -/
def Obligations.StepRunsTheDecodedInstruction : Prop :=
  ∀ (s : State) (rest : List Offer),
    (∀ w wb rb i, s.script = .agent (.task w wb rb) :: rest → taskMayRun s = true →
      decode s.params (.req .task w wb rb) = .ok i → step s = exec i { s with script := rest }) ∧
    (∀ w wb rb e, s.script = .agent (.task w wb rb) :: rest → taskMayRun s = true →
      decode s.params (.req .task w wb rb) = .error e → step s = .refused (refusalOf e)) ∧
    (∀ w i, s.script = .agent (.interrupt w) :: rest →
      decode s.params (.req .interrupt w default default) = .ok i → mayEnter i s = true →
      step s = exec i { s with script := rest }) ∧
    (∀ c i, s.script = .agent (.rawEnqueue [c]) :: rest → taskMayRun s = true →
      decode s.params (.cmd c) = .ok i → i ≠ .cmdNoop → step s = exec i { s with script := rest })

/-- Derived from rules R235, R33, R275: a handler takes its entry exactly when the vectors are armed, its interrupt
is requested, no handler is executing and no task is in a critical section; otherwise it has no step. That the
critical section and other code at the handlers' priority are bits of State is the model's (logs 20, 35). -/
def Obligations.HandlersEnterOnlyWhenTheyMay : Prop :=
  ∀ s : State,
    (s.armed = true ∧ (s.sr1.sb = true ∨ s.sr1.addr = true ∨ s.sr1.btf = true) ∧ s.waitStop = false ∧
        s.critical = false ∧ s.raised = false →
      runMove (.interrupt 8) s = exec .evIrq s) ∧
    (s.armed = true ∧ (s.sr1.timeout = true ∨ s.sr1.pecerr = true ∨ s.sr1.ovr = true ∨ s.sr1.af = true ∨
        s.sr1.arlo = true ∨ s.sr1.berr = true) ∧ s.waitStop = false ∧ s.critical = false ∧ s.raised = false →
      runMove (.interrupt 9) s = exec .erIrq s) ∧
    (s.armed = false ∨ (s.sr1.sb = false ∧ s.sr1.addr = false ∧ s.sr1.btf = false) ∨ s.waitStop = true ∨
        s.critical = true ∨ s.raised = true →
      runMove (.interrupt 8) s = .next s) ∧
    (s.armed = false ∨ (s.sr1.timeout = false ∧ s.sr1.pecerr = false ∧ s.sr1.ovr = false ∧ s.sr1.af = false ∧
        s.sr1.arlo = false ∧ s.sr1.berr = false) ∨ s.waitStop = true ∨ s.critical = true ∨ s.raised = true →
      runMove (.interrupt 9) s = .next s)

/-- Rule R241: while the EV handler holds in its STOP wait only the bus agent steps; the handler itself goes on only
once `CR1.STOP = 0` (rule R139). -/
def Obligations.OnlyTheBusStepsDuringTheStopWait : Prop :=
  ∀ (s t : State) (m : Move), s.waitStop = true → (∀ b, m ≠ .bus b) → (m = .stopWait → s.cr1.stop = true) →
    runMove m s = .next t → t = s

/-- Derived from rule R275: where no handler step can run (inside a critical section, in a handler's own code, at or
above the handlers' priority) a FUTURE_BLOCK on an unresolved slot holds for ever: no agent's step lifts it, leaves
that context or changes a slot. And the queue never drains there: no step removes an entry, and an enqueue refused
with `Busy` is refused again when it is retried. The bits for the context are the model's (logs 17, 20, 33, 35). -/
def Obligations.BlockWhereNoHandlerRunsHoldsForEver : Prop :=
  (∀ (s t : State) (m : Move) (h : Hold), s.waitStop = false → h ∈ s.blocked →
    (h.inCritical = true ∧ s.critical = true) ∨ (h.raised = true ∧ s.raised = true) →
    phaseTerminal (phaseAt s h.slot) = false → runMove m s = .next t →
    h ∈ t.blocked ∧ t.critical = s.critical ∧ t.raised = s.raised ∧ t.waitStop = false ∧ t.slots = s.slots) ∧
  (∀ (s t : State) (m : Move), s.waitStop = false → s.critical = true ∨ s.raised = true → runMove m s = .next t →
    (∃ ks, t.queue = s.queue ++ ks) ∧ t.waitStop = false ∧
    ∀ (i : Instr) (cs : List DataCmd), enqueues i = some cs →
      exec i s = .next { s with results := s.results ++ [.enq .busy] } →
      exec i t = .next { t with results := t.results ++ [.enq .busy] })

/-! ### Host operations (40_host_operations) -/

/-- Derived from rules R100 (accepted, idle engine), R104, R105, R106: the five enqueuing instructions on an empty
queue with room complete with the entries appended, the slot reset, both vectors armed, a START requested and a
Future returned. The lent buffers are the model's own bookkeeping (log 18); that CMD_WRITE and CMD_READ enqueue is
log 13. -/
def Obligations.EnqueueOnAnIdleEngineStartsIt : Prop :=
  ∀ (s : State) (i : Instr) (cs : List DataCmd), enqueues i = some cs → s.queue = [] → cs.length + 1 ≤ s.params.n →
    exec i s = .next { s with
      queue := cs.map .data ++ [.noop]
      slots := s.slots.set (s.head % s.params.n) .begin
      armed := true
      cr1 := { s.cr1 with ack := true, start := true }
      results := s.results ++ [.enq (.ok (s.head % s.params.n))]
      loans := s.loans ++ [⟨s.head % s.params.n, cs⟩] }

/-- Derived from rules R100, R102, R103, R56: on a non-empty queue with room the entries go behind those queued, the
slot is the one after the last handed out, and neither `armed` nor `CR1` is touched. The lent buffers are the
model's own bookkeeping (log 18); that CMD_WRITE and CMD_READ enqueue is log 13. -/
def Obligations.EnqueueBehindOthersWaits : Prop :=
  ∀ (s : State) (i : Instr) (cs : List DataCmd), enqueues i = some cs → s.queue ≠ [] →
    s.queue.length + cs.length + 1 ≤ s.params.n →
    exec i s = .next { s with
      queue := s.queue ++ (cs.map .data ++ [.noop])
      slots := s.slots.set ((s.head + noops s.queue) % s.params.n) .begin
      results := s.results ++ [.enq (.ok ((s.head + noops s.queue) % s.params.n))]
      loans := s.loans ++ [⟨(s.head + noops s.queue) % s.params.n, cs⟩] }

/-- Derived from rule R101: an enqueue without room returns `Err(Busy)`, encoded `0x100`, and writes nothing. That
CMD_WRITE and CMD_READ enqueue is log 13. -/
def Obligations.EnqueueWithoutRoomIsBusy : Prop :=
  encodeEnq .busy = 0x100 ∧
  ∀ (s : State) (i : Instr) (cs : List DataCmd), enqueues i = some cs →
    s.params.n < s.queue.length + cs.length + 1 →
    exec i s = .next { s with results := s.results ++ [.enq .busy] }

/-- Derived from rules R39, R102: in a sound state with room, the slot the next transaction receives is owned by no
queued transaction. -/
def Obligations.NextSlotIsFree : Prop :=
  ∀ (s : State) (j : Nat), Inv s → j < noops s.queue → (s.head + j) % s.params.n ≠ nextSlot s

/-- Derived from rules R102, R141 and 95_test_vectors L2-4: slots are handed out in turn; a step either leaves the
next slot as it is or hands it out and advances it by one modulo `N`. -/
def Obligations.SlotsAreHandedOutInTurn : Prop :=
  ∀ s t : State, Inv s → step s = .next t →
    nextSlot t = nextSlot s ∨
      (nextSlot t = (nextSlot s + 1) % s.params.n ∧ t.results = s.results ++ [.enq (.ok (nextSlot s))])

/-- Derived from rule R112: the enqueuing instructions produce only `[Write]`, `[Read]` and `[Write, Read]`; the raw
enqueue port accepts the three legal lists and refuses every other list of entries. The port is the model's choice
(log 27), as is that the addresses of `[Write, Read]` may differ there (log 32); that CMD_WRITE and CMD_READ enqueue
is log 13. -/
def Obligations.RawEnqueueChecksTheShape : Prop :=
  (∀ (s : State) (i : Instr) (cs : List DataCmd), enqueues i = some cs →
    exec i s = .next (enqueue cs s) ∧ cs.map DataCmd.dir ∈ [[.write], [.read], [.write, .read]]) ∧
  ∀ (s : State) (ks : List Command), taskMayRun s = true →
    (∀ c, ks = [.data c] → runMove (.rawEnqueue (ks.map encodeCommand)) s = .next (enqueue [c] s)) ∧
    (∀ c d, ks = [.data c, .data d] → c.dir = .write → d.dir = .read →
      runMove (.rawEnqueue (ks.map encodeCommand)) s = .next (enqueue [c, d] s)) ∧
    ((∀ c, ks ≠ [.data c]) → (∀ c d, c.dir = .write → d.dir = .read → ks ≠ [.data c, .data d]) →
      runMove (.rawEnqueue (ks.map encodeCommand)) s = .refused .badShape)

/-- Derived from rules R107, R56: FUTURE_READY returns the Poll of the slot and writes no engine state. That a Ready
ends the Future's loans is the model's record (log 18). -/
def Obligations.FutureReadyReturnsThePoll : Prop :=
  ∀ (s : State) (slot : Byte), slot.toNat < s.params.n →
    (phaseAt s slot.toNat ∈ [.begin, .startGenerated, .addressSend, .byteProcessing, .lastByte] →
      exec (.futureReady slot) s = .next { s with results := s.results ++ [.poll .pending] }) ∧
    (phaseAt s slot.toNat = .finished →
      exec (.futureReady slot) s = .next { s with
        results := s.results ++ [.poll .readyOk]
        loans := s.loans.filter (fun l => decide (l.slot ≠ slot.toNat)) }) ∧
    (∀ e, phaseAt s slot.toNat = .fail e →
      exec (.futureReady slot) s = .next { s with
        results := s.results ++ [.poll (.readyErr e)]
        loans := s.loans.filter (fun l => decide (l.slot ≠ slot.toNat)) })

/-- Derived from rules R108, R56: FUTURE_BLOCK returns at once, with the value FUTURE_READY would give, on a
terminal slot; on another it holds, writing no engine state, and returns that value once the slot is terminal and
its caller can run. The record of the hold is the model's own (log 17), as are the end of the loans (log 18) and
when the caller can run (logs 33, 35). -/
def Obligations.FutureBlockHoldsUntilResolved : Prop :=
  (∀ (s : State) (slot : Byte), slot.toNat < s.params.n →
    (phaseAt s slot.toNat = .finished →
      exec (.futureBlock slot) s = .next { s with
        results := s.results ++ [.poll .readyOk]
        loans := s.loans.filter (fun l => decide (l.slot ≠ slot.toNat)) }) ∧
    (∀ e, phaseAt s slot.toNat = .fail e →
      exec (.futureBlock slot) s = .next { s with
        results := s.results ++ [.poll (.readyErr e)]
        loans := s.loans.filter (fun l => decide (l.slot ≠ slot.toNat)) }) ∧
    (phaseTerminal (phaseAt s slot.toNat) = false →
      exec (.futureBlock slot) s = .next { s with blocked := s.blocked ++ [⟨slot.toNat, s.critical, s.raised⟩] })) ∧
  (∀ (s : State) (k : Nat) (h : Hold), s.blocked[k]? = some h → s.waitStop = false → h.inCritical = s.critical →
    h.raised = s.raised →
    (phaseAt s h.slot = .finished →
      runMove (.resume k) s = .next { s with
        results := s.results ++ [.poll .readyOk]
        loans := s.loans.filter (fun l => decide (l.slot ≠ h.slot))
        blocked := s.blocked.eraseIdx k }) ∧
    (∀ e, phaseAt s h.slot = .fail e →
      runMove (.resume k) s = .next { s with
        results := s.results ++ [.poll (.readyErr e)]
        loans := s.loans.filter (fun l => decide (l.slot ≠ h.slot))
        blocked := s.blocked.eraseIdx k }) ∧
    (phaseTerminal (phaseAt s h.slot) = false → runMove (.resume k) s = .next s))

/-- Derived from rules R73, R87, R8 and R141: the forms a meaning stops on, by name. A Future operation on a slot
`>= N` is refused (rule R73); a case of the EV handler run on a head Command rule R87 does not select it for is
refused (the model's choice, log 14); a byte whose address lies outside the address space stops the handler (log 6);
Finalize without its NoOp stops (log 15). -/
def Obligations.FormsThatStopByName : Prop :=
  ∀ s : State,
    (∀ slot : Byte, s.params.n ≤ slot.toNat →
      exec (.futureReady slot) s = .refused .badSlot ∧ exec (.futureBlock slot) s = .refused .badSlot) ∧
    ((∀ r, s.queue ≠ .noop :: r) → exec .cmdNoop s = .fault .noNoopToFinalize) ∧
    (∀ (c : DataCmd) (r : List Command), s.queue = .data c :: r →
      (c.dir = .read →
        exec .evAddrWrite s = .refused .caseNotSelected ∧ exec .evBtfWrite s = .refused .caseNotSelected) ∧
      (c.dir = .write →
        exec .evAddrRead s = .refused .caseNotSelected ∧ exec .evBtfRead s = .refused .caseNotSelected ∧
          exec .evBtfReadLast s = .refused .caseNotSelected) ∧
      (headPhase s = .lastByte → exec .evBtfRead s = .refused .caseNotSelected) ∧
      (headPhase s ≠ .lastByte → exec .evBtfReadLast s = .refused .caseNotSelected) ∧
      (s.cursor < c.buf.len.toNat → 2 ^ 32 ≤ bufAddr c.buf s.cursor →
        (c.dir = .write →
          exec .evAddrWrite s = .fault (.outsideAddressSpace (bufAddr c.buf s.cursor)) ∧
            exec .evBtfWrite s = .fault (.outsideAddressSpace (bufAddr c.buf s.cursor))) ∧
        (c.dir = .read → headPhase s ≠ .lastByte →
          exec .evBtfRead s = .fault (.outsideAddressSpace (bufAddr c.buf s.cursor))) ∧
        (c.dir = .read → headPhase s = .lastByte →
          exec .evBtfReadLast s = .fault (.outsideAddressSpace (bufAddr c.buf s.cursor)))))

/-! ### The EV handler (41_event_engine) -/

/-- Rule R133: EV_SB records StartGenerated, writes the address byte to `DR` and clears SB; the bus takes the byte
as part of the step (rules R204, R205). -/
def Obligations.StartBitSentWritesTheAddressByte : Prop :=
  ∀ (s : State) (c : DataCmd) (r : List Command), s.queue = .data c :: r →
    exec .evSb s = .next { s with
      slots := s.slots.set s.head .startGenerated
      drTx := addrByte c.addr c.dir
      mode := busTake (addrByte c.addr c.dir) s.mode
      sr1 := { s.sr1 with sb := false } }

/-- Rules R134, R136: the phase and the serviced flag are written; while bytes remain the next byte of the Write's
buffer goes to `DR` and the cursor advances, otherwise the Command ends (EndCommand, itself stated). The byte's
address is the one the meaning uses. -/
def Obligations.WriteTransmitsTheNextByteOrEnds : Prop :=
  ∀ (s : State) (c : DataCmd) (r : List Command), s.queue = .data c :: r → c.dir = .write →
    (c.buf.len.toNat ≤ s.cursor →
      exec .evAddrWrite s = endCommand c false { s with
        slots := s.slots.set s.head .addressSend
        sr1 := { s.sr1 with addr := false } } ∧
      exec .evBtfWrite s = endCommand c false { s with
        slots := s.slots.set s.head .byteProcessing
        sr1 := { s.sr1 with btf := false } }) ∧
    (s.cursor < c.buf.len.toNat → bufAddr c.buf s.cursor < 2 ^ 32 →
    exec .evAddrWrite s = .next { s with
      slots := s.slots.set s.head .addressSend
      sr1 := { s.sr1 with addr := false }
      drTx := memRead s.mem (c.buf.base.toNat + s.cursor)
      mode := busTake (memRead s.mem (c.buf.base.toNat + s.cursor)) s.mode
      cursor := s.cursor + 1 } ∧
    exec .evBtfWrite s = .next { s with
      slots := s.slots.set s.head .byteProcessing
      sr1 := { s.sr1 with btf := false }
      drTx := memRead s.mem (c.buf.base.toNat + s.cursor)
      mode := busTake (memRead s.mem (c.buf.base.toNat + s.cursor)) s.mode
      cursor := s.cursor + 1 })

/-- Rules R134, R136, R140, R141 when no byte remains and the NoOp is next: STOP is requested, the slot is Finished,
and the next transaction is started or the vectors masked. -/
def Obligations.LastWriteByteEndsTheTransaction : Prop :=
  ∀ (s : State) (c : DataCmd) (r : List Command), s.queue = .data c :: .noop :: r → c.dir = .write →
    c.buf.len.toNat ≤ s.cursor →
    exec .evAddrWrite s = .next (transactionOver .finished r
      { s with sr1 := { s.sr1 with addr := false }, cr1 := { s.cr1 with stop := true } }) ∧
    exec .evBtfWrite s = .next (transactionOver .finished r
      { s with sr1 := { s.sr1 with btf := false }, cr1 := { s.cr1 with stop := true } })

/-- Rules R140, R147: at the end of the Write of a write-then-read no STOP is requested; the phase is Begin again
and a repeated START is issued. -/
def Obligations.WriteThenReadRepeatsTheStart : Prop :=
  ∀ (s : State) (c d : DataCmd) (r : List Command), s.queue = .data c :: .data d :: r → c.dir = .write →
    c.buf.len.toNat ≤ s.cursor →
    exec .evAddrWrite s = .next (commandOver d r { s with sr1 := { s.sr1 with addr := false } }) ∧
    exec .evBtfWrite s = .next (commandOver d r { s with sr1 := { s.sr1 with btf := false } })

/-- Rule R135: EV_ADDR_READ records AddressSend and clears ADDR, and nothing else when the buffer has room; an empty
buffer ends the Command by the Write path (EndCommand with a STOP requested and no STOP wait), which for the last
Command of its transaction ends the transaction. -/
def Obligations.AddressSentForARead : Prop :=
  ∀ (s : State) (c : DataCmd) (r : List Command), c.dir = .read →
    (s.queue = .data c :: r → 0 < c.buf.len.toNat →
      exec .evAddrRead s = .next { s with
        slots := s.slots.set s.head .addressSend
        sr1 := { s.sr1 with addr := false } }) ∧
    (s.queue = .data c :: r → c.buf.len.toNat = 0 →
      exec .evAddrRead s = endCommand c false { s with
        slots := s.slots.set s.head .addressSend
        sr1 := { s.sr1 with addr := false } }) ∧
    (s.queue = .data c :: .noop :: r → c.buf.len.toNat = 0 →
      exec .evAddrRead s = .next (transactionOver .finished r
        { s with sr1 := { s.sr1 with addr := false }, cr1 := { s.cr1 with stop := true } }))

/-- Rule R137: EV_BTF_READ captures the byte at the cursor and advances it; AddressSend becomes ByteProcessing; the
second-to-last byte drops ACK, requests STOP and enters LastByte; a byte with no place is FAULT_RX_OVERFLOW. -/
def Obligations.ReadCapturesAByte : Prop :=
  ∀ (s : State) (c : DataCmd) (r : List Command), s.queue = .data c :: r → c.dir = .read →
    headPhase s ≠ .lastByte → (s.cursor < c.buf.len.toNat → bufAddr c.buf s.cursor < 2 ^ 32) →
    (c.buf.len.toNat ≤ s.cursor →
      exec .evBtfRead s = .next { s with
        slots := if headPhase s = .addressSend then s.slots.set s.head .byteProcessing else s.slots
        sr1 := { s.sr1 with btf := false }
        faults := { s.faults with rxOverflow := true } }) ∧
    (s.cursor < c.buf.len.toNat → s.cursor + 2 ≠ c.buf.len.toNat →
      exec .evBtfRead s = .next { s with
        slots := if headPhase s = .addressSend then s.slots.set s.head .byteProcessing else s.slots
        sr1 := { s.sr1 with btf := false }
        mem := memWrite s.mem (bufAddr c.buf s.cursor) s.drRx
        cursor := s.cursor + 1 }) ∧
    (s.cursor + 2 = c.buf.len.toNat →
      exec .evBtfRead s = .next { s with
        slots := s.slots.set s.head .lastByte
        sr1 := { s.sr1 with btf := false }
        mem := memWrite s.mem (bufAddr c.buf s.cursor) s.drRx
        cursor := s.cursor + 1
        cr1 := { s.cr1 with ack := false, stop := true } })

/-- Rule R138: EV_BTF_READ_LAST captures the last byte and starts the STOP wait; a byte with no place is
FAULT_RX_OVERFLOW. -/
def Obligations.LastReadByteStartsTheStopWait : Prop :=
  ∀ (s : State) (c : DataCmd) (r : List Command), s.queue = .data c :: r → c.dir = .read →
    headPhase s = .lastByte →
    (s.cursor < c.buf.len.toNat → bufAddr c.buf s.cursor < 2 ^ 32 →
      exec .evBtfReadLast s = .next { s with
        sr1 := { s.sr1 with btf := false }
        mem := memWrite s.mem (bufAddr c.buf s.cursor) s.drRx
        cursor := s.cursor + 1
        waitStop := true }) ∧
    (c.buf.len.toNat ≤ s.cursor →
      exec .evBtfReadLast s = .next { s with
        sr1 := { s.sr1 with btf := false }
        faults := { s.faults with rxOverflow := true } })

/-- Rule R145: a Read byte with no place in the buffer sets FAULT_RX_OVERFLOW and writes no memory; the clearing of
BTF and AddressSend's update stand, and nothing else is done. -/
def Obligations.ByteBeyondTheBufferOverflows : Prop :=
  ∀ (s : State) (c : DataCmd) (r : List Command), s.queue = .data c :: r → c.dir = .read →
    c.buf.len.toNat ≤ s.cursor →
    (headPhase s ≠ .lastByte →
      exec .evBtfRead s = .next { s with
        slots := if headPhase s = .addressSend then s.slots.set s.head .byteProcessing else s.slots
        sr1 := { s.sr1 with btf := false }
        faults := { s.faults with rxOverflow := true } }) ∧
    (headPhase s = .lastByte →
      exec .evBtfReadLast s = .next { s with
        sr1 := { s.sr1 with btf := false }
        faults := { s.faults with rxOverflow := true } })

/-- Rule R139: the STOP wait holds while `CR1.STOP = 1`; once it is 0 the wait ends and EndCommand is performed
without a second STOP, which for the last Command of its transaction ends the transaction. -/
def Obligations.StopWaitEndsTheRead : Prop :=
  ∀ (s : State) (c : DataCmd) (r : List Command), s.waitStop = true →
    (s.cr1.stop = true → runMove .stopWait s = .next s) ∧
    (s.cr1.stop = false → s.queue = .data c :: r →
      runMove .stopWait s = endCommand c true { s with waitStop := false }) ∧
    (s.cr1.stop = false → s.queue = .data c :: .noop :: r →
      runMove .stopWait s = .next (transactionOver (finalPhase (headPhase s)) r { s with waitStop := false }))

/-- Rules R132, R146: with a data Command at the head EV_NONE, and an entry that finds no event flag, change
nothing; with a NoOp at the head every entry and case of the EV handler sets FAULT_NOOP_AT_HEAD and nothing else. -/
def Obligations.NoEventAndNoopAtTheHead : Prop :=
  ∀ (s : State) (i : Instr),
    (∀ c r, s.queue = .data c :: r → exec .evNone s = .next s ∧
      (s.sr1.sb = false → s.sr1.addr = false → s.sr1.btf = false → exec .evIrq s = .next s)) ∧
    (∀ r, s.queue = .noop :: r → isEvent i = true →
      exec i s = .next { s with faults := { s.faults with noopAtHead := true } })

/-- Rule R140: EndCommand, all its branches, a Read before a data Command being FAULT_READ_NOT_LAST with the pop and
the cursor's reset standing. -/
def Obligations.EndCommandBranches : Prop :=
  ∀ (s : State) (c d : DataCmd) (r : List Command),
    (s.queue = .data c :: .noop :: r →
      endCommand c false s =
          .next (transactionOver (finalPhase (headPhase s)) r { s with cr1 := { s.cr1 with stop := true } }) ∧
        endCommand c true s = .next (transactionOver (finalPhase (headPhase s)) r s)) ∧
    (s.queue = .data c :: .data d :: r → ∀ b,
      (c.dir = .write → endCommand c b s = .next (commandOver d r s)) ∧
      (c.dir = .read →
        endCommand c b s = .next { s with
          queue := .data d :: r
          cursor := 0
          faults := { s.faults with readNotLast := true } }))

/-- Derived from rules R141, R92: CMD_NOOP, which the model reads as Finalize (log 13), with the NoOp at the head:
it is removed, the slot is Finished unless it records a Fail, `head` advances, and the next transaction is started
or the vectors masked. -/
def Obligations.NoopIsFinalized : Prop :=
  ∀ s : State,
    (∀ r, s.queue = .noop :: r → (∀ e, headPhase s ≠ .fail e) →
      exec .cmdNoop s = .next { transactionOver .finished r s with cursor := s.cursor }) ∧
    (∀ r e, s.queue = .noop :: r → headPhase s = .fail e →
      exec .cmdNoop s = .next { transactionOver (.fail e) r s with cursor := s.cursor })

/-! ### The ER handler (42_error_handler) -/

/-- Rules R171, R172, R173, R174, R175, R176, R179, R180, R183: a reported error flag is cleared alone, the head
slot records the Error (a NACK refined from the slot's phase), the rest of the failing transaction up to its NoOp is
removed, and the next one is started or the vectors masked. -/
def Obligations.ReportedErrorFailsAndSkipsTheHead : Prop :=
  ∀ (s : State) (i : Instr) (e : BusError) (ds : List DataCmd) (r : List Command),
    reports (headPhase s) i = some e → ds ≠ [] → s.queue = ds.map .data ++ .noop :: r →
    exec i s = .next (transactionOver (.fail e) r { s with sr1 := serviced s.sr1 i })

/-- Rules R177, R178, R181: ER_BERR clears BERR and ER_NONE changes nothing, whatever is queued; with an empty queue
every case only clears its flag. -/
def Obligations.UnreportedErrorsOnlyClearTheirFlag : Prop :=
  ∀ s : State,
    exec .erBerr s = .next { s with sr1 := { s.sr1 with berr := false } } ∧
    exec .erNone s = .next s ∧
    (s.queue = [] → ∀ i, isError i = true → i ≠ .erIrq → exec i s = .next { s with sr1 := serviced s.sr1 i })

/-- Derived from rules R130, R170, R140, R180: the two handler entries complete in every sound state (Inv, itself
stated), whatever flags are set, with the effect of the case they select, provided the queued buffers lie in the
address space. -/
def Obligations.HandlerEntriesComplete : Prop :=
  ∀ s : State, Inv s → buffersInSpace s.queue →
    (∃ t, exec .evIrq s = .next t ∧ ∀ c r, s.queue = .data c :: r →
      exec (selectEvt s.sr1 c.dir (decide (headPhase s = .lastByte))).instr s = .next t) ∧
    (∃ t, exec .erIrq s = .next t ∧ exec (selectErr s.sr1).instr s = .next t)

/-! ### Frames -/

/-- Derived from rules R131 to R141, R44, R48: when an EV instruction gives a next state it leaves every slot but the
head's, the six error flags, the tasks' side and everything outside as it was, and every byte of memory but the one at
the cursor of a Read's buffer, which only EV_BTF_READ, EV_BTF_READ_LAST and the entry may write. -/
def Obligations.EventFrame : Prop :=
  ∀ (s t : State) (i : Instr), isEvent i = true → exec i s = .next t →
    sameOutside s t ∧ sameTasks s t ∧
    (∀ j, j ≠ s.head → phaseAt t j = phaseAt s j) ∧
    t.sr1.timeout = s.sr1.timeout ∧ t.sr1.pecerr = s.sr1.pecerr ∧ t.sr1.ovr = s.sr1.ovr ∧ t.sr1.af = s.sr1.af ∧
    t.sr1.arlo = s.sr1.arlo ∧ t.sr1.berr = s.sr1.berr ∧
    (∀ c r, s.queue = .data c :: r → ∀ a, a ≠ bufAddr c.buf s.cursor → memRead t.mem a = memRead s.mem a) ∧
    ((∀ c r, s.queue = .data c :: r → c.dir = .write) → t.mem = s.mem) ∧
    ((i ≠ .evBtfRead ∧ i ≠ .evBtfReadLast ∧ i ≠ .evIrq) → t.mem = s.mem)

/-- Derived from rules R170 to R182, R44, R48: when an ER instruction gives a next state it leaves memory, `DR`, the
bus, `wait_stop`, a requested STOP, the three event flags, every slot but the head's, the tasks' side and everything
outside as they were (so no STOP is requested, rule R182). -/
def Obligations.ErrorFrame : Prop :=
  ∀ (s t : State) (i : Instr), isError i = true → exec i s = .next t →
    sameOutside s t ∧ sameTasks s t ∧
    (∀ j, j ≠ s.head → phaseAt t j = phaseAt s j) ∧
    t.mem = s.mem ∧ t.drTx = s.drTx ∧ t.mode = s.mode ∧ t.waitStop = s.waitStop ∧ t.cr1.stop = s.cr1.stop ∧
    t.sr1.sb = s.sr1.sb ∧ t.sr1.addr = s.sr1.addr ∧ t.sr1.btf = s.sr1.btf ∧
    t.faults.rxOverflow = s.faults.rxOverflow ∧ t.faults.readNotLast = s.faults.readNotLast ∧
    t.faults.bufferRace = s.faults.bufferRace

/-- Derived from rules R100, R101, R103, R107, R108 (and log 13 for CMD_WRITE and CMD_READ): when an enqueuing
instruction or a Future operation gives a next state it leaves `head`, `cursor`, `wait_stop`, the model faults,
every status flag, a requested STOP, `DR`, the bus, all of memory and every slot but the one handed out as they
were; a Future operation leaves queue, slots, `armed` and `CR1` too. -/
def Obligations.HostOperationFrame : Prop :=
  ∀ (s t : State) (i : Instr), (enqueues i ≠ none ∨ isFuture i = true) → exec i s = .next t →
    sameOutside s t ∧
    t.head = s.head ∧ t.cursor = s.cursor ∧ t.waitStop = s.waitStop ∧ t.faults = s.faults ∧ t.sr1 = s.sr1 ∧
    t.cr1.stop = s.cr1.stop ∧ t.drTx = s.drTx ∧ t.mode = s.mode ∧ t.mem = s.mem ∧
    (∀ j, j ≠ nextSlot s → phaseAt t j = phaseAt s j) ∧
    (isFuture i = true → t.queue = s.queue ∧ t.slots = s.slots ∧ t.armed = s.armed ∧ t.cr1 = s.cr1) ∧
    (enqueues i ≠ none → t.blocked = s.blocked)

/-! ### Whole-machine rules -/

/-- Rule R48: only an enqueue, a handler on the head slot and nothing else writes a slot; once a slot is Finished or
Fail(e) only a later enqueue into it changes it. -/
def Obligations.OnlyAnEnqueueReopensASlot : Prop :=
  ∀ s t : State, Inv s → step s = .next t → ∀ i,
    (phaseAt t i ≠ phaseAt s i →
      (t.results = s.results ++ [.enq (.ok i)] ∧ phaseAt t i = .begin) ∨ (i = s.head ∧ s.queue ≠ [])) ∧
    (phaseTerminal (phaseAt s i) = true →
      phaseAt t i = phaseAt s i ∨ (t.results = s.results ++ [.enq (.ok i)] ∧ phaseAt t i = .begin))

/-- Derived from rule R34: no step clears a model fault. -/
def Obligations.ModelFaultsAreNeverCleared : Prop :=
  ∀ s t : State, step s = .next t →
    (s.faults.rxOverflow = true → t.faults.rxOverflow = true) ∧
    (s.faults.noopAtHead = true → t.faults.noopAtHead = true) ∧
    (s.faults.readNotLast = true → t.faults.readNotLast = true) ∧
    (s.faults.bufferRace = true → t.faults.bufferRace = true)

/-- Derived from rules R22, R61: the queue is a FIFO; a step removes entries at the head or adds them at the tail,
never both, and touches no entry between. -/
def Obligations.QueueIsFifo : Prop :=
  ∀ s t : State, step s = .next t →
    (∃ k, t.queue = s.queue.drop k) ∨ (∃ ks, t.queue = s.queue ++ ks)

/-- Derived from rules R30, R83, R84, R272: no step of any agent writes the parameters, `CR1.PE`, the other bits of
`CR1`, `CR2`, `SR2` or the other bits of `SR1`. -/
def Obligations.PlatformBitsNeverChange : Prop :=
  ∀ s t : State, step s = .next t →
    t.params = s.params ∧ t.cr1.pe = s.cr1.pe ∧ t.cr1.other = s.cr1.other ∧ t.cr2 = s.cr2 ∧ t.sr2 = s.sr2 ∧
      t.sr1.other = s.sr1.other

/-- Derived from rules R50, R51, R56: a step that changes a byte of caller memory is a task's own store, or the EV
handler capturing the received byte at the cursor of the head Read's buffer, inside it. -/
def Obligations.OnlyReadBuffersAndTasksChangeMemory : Prop :=
  ∀ (s t : State) (a : Nat), step s = .next t → memRead t.mem a ≠ memRead s.mem a →
    (∃ x b, (takeOffer s).1 = .agent (.store x b) ∧ a = x.toNat) ∨
      (∃ c r, s.queue = .data c :: r ∧ c.dir = .read ∧ a = bufAddr c.buf s.cursor ∧
        s.cursor < c.buf.len.toNat ∧ t.cursor = s.cursor + 1)

/-- Derived from rules R12, R50: caller memory is a memory; a write is read back, and every other address reads as
before (that the canonical form is kept is part of StepKeepsTheInvariants). -/
def Obligations.MemoryReadsBackWhatWasWritten : Prop :=
  ∀ (m : Memory) (a : Nat) (v : Byte), Memory.wf m = true →
    memRead (memWrite m a v) a = v ∧ ∀ b, b ≠ a → memRead (memWrite m a v) b = memRead m b

/-- Derived from rule R56 (with the model's readings of logs 18 and 19): a task's access to a buffer in flight sets
FAULT_BUFFER_RACE and nothing else; reading a Write buffer in flight, and any access outside the buffers in flight,
is no race. -/
def Obligations.TouchingABufferInFlightIsARace : Prop :=
  ∀ (s : State) (l : Loan) (c : DataCmd) (a : Word) (b : Byte), taskMayRun s = true →
    (l ∈ s.loans → c ∈ l.cmds → c.buf.base.toNat ≤ a.toNat → a.toNat < c.buf.base.toNat + c.buf.len.toNat →
      runMove (.store a b) s = .next { s with faults := { s.faults with bufferRace := true } } ∧
      (c.dir = .read → runMove (.load a) s = .next { s with faults := { s.faults with bufferRace := true } })) ∧
    ((∀ l ∈ s.loans, ∀ c ∈ l.cmds, c.buf.base.toNat ≤ a.toNat → a.toNat < c.buf.base.toNat + c.buf.len.toNat →
        c.dir = .write) → runMove (.load a) s = .next s) ∧
    ((∀ l ∈ s.loans, ∀ c ∈ l.cmds, c.buf.base.toNat ≤ a.toNat → ¬ a.toNat < c.buf.base.toNat + c.buf.len.toNat) →
      runMove (.store a b) s = .next { s with mem := memWrite s.mem a.toNat b })

/-! ### The bus agent (43_bus_agent) -/

/-- Rules R200, R210: no step of the bus agent writes engine state, memory or the tasks' side, clears a status flag,
or sets a control bit. -/
def Obligations.BusWritesNoEngineState : Prop :=
  ∀ (s : State) (b : BusMove),
    let t := busStep b s
    t.queue = s.queue ∧ t.cursor = s.cursor ∧ t.slots = s.slots ∧ t.head = s.head ∧ t.armed = s.armed ∧
      t.waitStop = s.waitStop ∧ t.faults = s.faults ∧ t.mem = s.mem ∧ t.results = s.results ∧ t.loans = s.loans ∧
      t.blocked = s.blocked ∧ t.critical = s.critical ∧ t.raised = s.raised ∧
      t.cr1.ack = s.cr1.ack ∧ t.drTx = s.drTx ∧
      (s.sr1.sb = true → t.sr1.sb = true) ∧ (s.sr1.addr = true → t.sr1.addr = true) ∧
      (s.sr1.btf = true → t.sr1.btf = true) ∧ (s.sr1.timeout = true → t.sr1.timeout = true) ∧
      (s.sr1.pecerr = true → t.sr1.pecerr = true) ∧ (s.sr1.ovr = true → t.sr1.ovr = true) ∧
      (s.sr1.af = true → t.sr1.af = true) ∧ (s.sr1.arlo = true → t.sr1.arlo = true) ∧
      (s.sr1.berr = true → t.sr1.berr = true) ∧
      (t.cr1.start = true → s.cr1.start = true) ∧ (t.cr1.stop = true → s.cr1.stop = true)

/-- Rules R203, R207, R208: the START and STOP steps of the reference bus, each exactly when enabled, the STOP
before the START when both are requested. -/
def Obligations.ReferenceBusStartsAndStops : Prop :=
  ∀ s : State, s.params.bus = .reference →
    (s.cr1.start = true → s.cr1.stop = false → s.mode = .idle ∨ s.mode = .txIdle ∨ s.mode = .rxDone →
      runMove (.bus .start) s = .next { s with
        wire := s.wire ++ [.start]
        held := true
        cr1 := { s.cr1 with start := false }
        sr1 := { s.sr1 with sb := true }
        mode := .addrPending }) ∧
    (s.cr1.stop = true → s.mode = .idle ∨ s.mode = .txIdle ∨ s.mode = .rxDone →
      runMove (.bus .stop) s = .next { s with
        wire := s.wire ++ [.stop]
        held := false
        cr1 := { s.cr1 with stop := false }
        mode := .idle }) ∧
    (s.cr1.start = false ∨ s.cr1.stop = true ∨ (s.mode ≠ .idle ∧ s.mode ≠ .txIdle ∧ s.mode ≠ .rxDone) →
      runMove (.bus .start) s = .next s) ∧
    (s.cr1.stop = false ∨ (s.mode ≠ .idle ∧ s.mode ≠ .txIdle ∧ s.mode ≠ .rxDone) →
      runMove (.bus .stop) s = .next s)

/-- Rules R204, R205, R206: the address, transmit and receive steps of the reference bus; the acknowledge bit of a
received byte is `CR1.ACK`. -/
def Obligations.ReferenceBusMovesBytes : Prop :=
  ∀ (s : State) (b : Byte), s.params.bus = .reference →
    (s.mode = .addrInFlight b →
      runMove (.bus (.address true)) s = .next { s with
        wire := s.wire ++ [.acked b]
        sr1 := { s.sr1 with addr := true }
        mode := if b.getLsbD 0 then .rx else .txIdle } ∧
      runMove (.bus (.address false)) s = .next { s with
        wire := s.wire ++ [.nacked b]
        sr1 := { s.sr1 with af := true }
        mode := .idle }) ∧
    (s.mode = .txInFlight b →
      runMove (.bus (.transmit true)) s = .next { s with
        wire := s.wire ++ [.acked b]
        sr1 := { s.sr1 with btf := true }
        mode := .txIdle } ∧
      runMove (.bus (.transmit false)) s = .next { s with
        wire := s.wire ++ [.nacked b]
        sr1 := { s.sr1 with af := true }
        mode := .idle }) ∧
    (s.mode = .rx → s.sr1.addr = false → s.sr1.btf = false →
      runMove (.bus (.receive b)) s = .next { s with
        wire := s.wire ++ [if s.cr1.ack then .acked b else .nacked b]
        drRx := b
        sr1 := { s.sr1 with btf := true }
        mode := if s.cr1.ack = false ∨ s.cr1.stop = true then .rxDone else .rx }) ∧
    (s.mode ≠ .rx ∨ s.sr1.addr = true ∨ s.sr1.btf = true → runMove (.bus (.receive b)) s = .next s)

/-- Rules R201, R209: a permissive step sets the flags it names, hands over a byte if it has one and clears the
requests it names, in any combination, and records no wire log; an injected fault sets its one flag and changes
nothing else. -/
def Obligations.PermissiveAndInjectedSteps : Prop :=
  (∀ (s : State) (f : Sr1) (b : Option Byte) (noStart noStop : Bool), s.params.bus = .permissive →
    runMove (.bus (.permissive f b noStart noStop)) s = .next { s with
      sr1 := {
        sb := s.sr1.sb || f.sb
        addr := s.sr1.addr || f.addr
        btf := s.sr1.btf || f.btf
        timeout := s.sr1.timeout || f.timeout
        pecerr := s.sr1.pecerr || f.pecerr
        ovr := s.sr1.ovr || f.ovr
        af := s.sr1.af || f.af
        arlo := s.sr1.arlo || f.arlo
        berr := s.sr1.berr || f.berr
        other := s.sr1.other }
      drRx := b.getD s.drRx
      cr1 := { s.cr1 with
        start := if noStart then false else s.cr1.start
        stop := if noStop then false else s.cr1.stop } }) ∧
  (∀ s : State, s.params.bus = .reference →
    runMove (.bus (.inject .timeout)) s = .next { s with sr1 := { s.sr1 with timeout := true } } ∧
    runMove (.bus (.inject .pecerr)) s = .next { s with sr1 := { s.sr1 with pecerr := true } } ∧
    runMove (.bus (.inject .ovr)) s = .next { s with sr1 := { s.sr1 with ovr := true } } ∧
    runMove (.bus (.inject .arlo)) s = .next { s with sr1 := { s.sr1 with arlo := true } } ∧
    runMove (.bus (.inject .berr)) s = .next { s with sr1 := { s.sr1 with berr := true } })

/-- Derived from rule R202: the wire log only grows; no step removes or changes an entry. -/
def Obligations.WireLogOnlyGrows : Prop :=
  ∀ s t : State, step s = .next t → ∃ ws, t.wire = s.wire ++ ws ∧ ws.length ≤ 1
end

