-- ==== Sys2Proof/Laws/State.lean ====
section
/-!
SUPPORT. One lemma per field of State per basic update of the machine.
-/

namespace Sys2Proof.Machine

/-! ### clearSb -/

@[simp] theorem clearSb_params (s : State) : (clearSb s).params = s.params := rfl
@[simp] theorem clearSb_queue (s : State) : (clearSb s).queue = s.queue := rfl
@[simp] theorem clearSb_cursor (s : State) : (clearSb s).cursor = s.cursor := rfl
@[simp] theorem clearSb_slots (s : State) : (clearSb s).slots = s.slots := rfl
@[simp] theorem clearSb_head (s : State) : (clearSb s).head = s.head := rfl
@[simp] theorem clearSb_armed (s : State) : (clearSb s).armed = s.armed := rfl
@[simp] theorem clearSb_waitStop (s : State) : (clearSb s).waitStop = s.waitStop := rfl
@[simp] theorem clearSb_faults (s : State) : (clearSb s).faults = s.faults := rfl
@[simp] theorem clearSb_cr1 (s : State) : (clearSb s).cr1 = s.cr1 := rfl
@[simp] theorem clearSb_cr2 (s : State) : (clearSb s).cr2 = s.cr2 := rfl
@[simp] theorem clearSb_sr1 (s : State) : (clearSb s).sr1 = { s.sr1 with sb := false } := rfl
@[simp] theorem clearSb_sr2 (s : State) : (clearSb s).sr2 = s.sr2 := rfl
@[simp] theorem clearSb_drTx (s : State) : (clearSb s).drTx = s.drTx := rfl
@[simp] theorem clearSb_drRx (s : State) : (clearSb s).drRx = s.drRx := rfl
@[simp] theorem clearSb_mem (s : State) : (clearSb s).mem = s.mem := rfl
@[simp] theorem clearSb_held (s : State) : (clearSb s).held = s.held := rfl
@[simp] theorem clearSb_mode (s : State) : (clearSb s).mode = s.mode := rfl
@[simp] theorem clearSb_wire (s : State) : (clearSb s).wire = s.wire := rfl
@[simp] theorem clearSb_results (s : State) : (clearSb s).results = s.results := rfl
@[simp] theorem clearSb_loans (s : State) : (clearSb s).loans = s.loans := rfl
@[simp] theorem clearSb_blocked (s : State) : (clearSb s).blocked = s.blocked := rfl
@[simp] theorem clearSb_critical (s : State) : (clearSb s).critical = s.critical := rfl
@[simp] theorem clearSb_raised (s : State) : (clearSb s).raised = s.raised := rfl
@[simp] theorem clearSb_script (s : State) : (clearSb s).script = s.script := rfl
@[simp] theorem clearSb_tick (s : State) : (clearSb s).tick = s.tick := rfl

/-! ### clearAddr -/

@[simp] theorem clearAddr_params (s : State) : (clearAddr s).params = s.params := rfl
@[simp] theorem clearAddr_queue (s : State) : (clearAddr s).queue = s.queue := rfl
@[simp] theorem clearAddr_cursor (s : State) : (clearAddr s).cursor = s.cursor := rfl
@[simp] theorem clearAddr_slots (s : State) : (clearAddr s).slots = s.slots := rfl
@[simp] theorem clearAddr_head (s : State) : (clearAddr s).head = s.head := rfl
@[simp] theorem clearAddr_armed (s : State) : (clearAddr s).armed = s.armed := rfl
@[simp] theorem clearAddr_waitStop (s : State) : (clearAddr s).waitStop = s.waitStop := rfl
@[simp] theorem clearAddr_faults (s : State) : (clearAddr s).faults = s.faults := rfl
@[simp] theorem clearAddr_cr1 (s : State) : (clearAddr s).cr1 = s.cr1 := rfl
@[simp] theorem clearAddr_cr2 (s : State) : (clearAddr s).cr2 = s.cr2 := rfl
@[simp] theorem clearAddr_sr1 (s : State) : (clearAddr s).sr1 = { s.sr1 with addr := false } := rfl
@[simp] theorem clearAddr_sr2 (s : State) : (clearAddr s).sr2 = s.sr2 := rfl
@[simp] theorem clearAddr_drTx (s : State) : (clearAddr s).drTx = s.drTx := rfl
@[simp] theorem clearAddr_drRx (s : State) : (clearAddr s).drRx = s.drRx := rfl
@[simp] theorem clearAddr_mem (s : State) : (clearAddr s).mem = s.mem := rfl
@[simp] theorem clearAddr_held (s : State) : (clearAddr s).held = s.held := rfl
@[simp] theorem clearAddr_mode (s : State) : (clearAddr s).mode = s.mode := rfl
@[simp] theorem clearAddr_wire (s : State) : (clearAddr s).wire = s.wire := rfl
@[simp] theorem clearAddr_results (s : State) : (clearAddr s).results = s.results := rfl
@[simp] theorem clearAddr_loans (s : State) : (clearAddr s).loans = s.loans := rfl
@[simp] theorem clearAddr_blocked (s : State) : (clearAddr s).blocked = s.blocked := rfl
@[simp] theorem clearAddr_critical (s : State) : (clearAddr s).critical = s.critical := rfl
@[simp] theorem clearAddr_raised (s : State) : (clearAddr s).raised = s.raised := rfl
@[simp] theorem clearAddr_script (s : State) : (clearAddr s).script = s.script := rfl
@[simp] theorem clearAddr_tick (s : State) : (clearAddr s).tick = s.tick := rfl

/-! ### clearBtf -/

@[simp] theorem clearBtf_params (s : State) : (clearBtf s).params = s.params := rfl
@[simp] theorem clearBtf_queue (s : State) : (clearBtf s).queue = s.queue := rfl
@[simp] theorem clearBtf_cursor (s : State) : (clearBtf s).cursor = s.cursor := rfl
@[simp] theorem clearBtf_slots (s : State) : (clearBtf s).slots = s.slots := rfl
@[simp] theorem clearBtf_head (s : State) : (clearBtf s).head = s.head := rfl
@[simp] theorem clearBtf_armed (s : State) : (clearBtf s).armed = s.armed := rfl
@[simp] theorem clearBtf_waitStop (s : State) : (clearBtf s).waitStop = s.waitStop := rfl
@[simp] theorem clearBtf_faults (s : State) : (clearBtf s).faults = s.faults := rfl
@[simp] theorem clearBtf_cr1 (s : State) : (clearBtf s).cr1 = s.cr1 := rfl
@[simp] theorem clearBtf_cr2 (s : State) : (clearBtf s).cr2 = s.cr2 := rfl
@[simp] theorem clearBtf_sr1 (s : State) : (clearBtf s).sr1 = { s.sr1 with btf := false } := rfl
@[simp] theorem clearBtf_sr2 (s : State) : (clearBtf s).sr2 = s.sr2 := rfl
@[simp] theorem clearBtf_drTx (s : State) : (clearBtf s).drTx = s.drTx := rfl
@[simp] theorem clearBtf_drRx (s : State) : (clearBtf s).drRx = s.drRx := rfl
@[simp] theorem clearBtf_mem (s : State) : (clearBtf s).mem = s.mem := rfl
@[simp] theorem clearBtf_held (s : State) : (clearBtf s).held = s.held := rfl
@[simp] theorem clearBtf_mode (s : State) : (clearBtf s).mode = s.mode := rfl
@[simp] theorem clearBtf_wire (s : State) : (clearBtf s).wire = s.wire := rfl
@[simp] theorem clearBtf_results (s : State) : (clearBtf s).results = s.results := rfl
@[simp] theorem clearBtf_loans (s : State) : (clearBtf s).loans = s.loans := rfl
@[simp] theorem clearBtf_blocked (s : State) : (clearBtf s).blocked = s.blocked := rfl
@[simp] theorem clearBtf_critical (s : State) : (clearBtf s).critical = s.critical := rfl
@[simp] theorem clearBtf_raised (s : State) : (clearBtf s).raised = s.raised := rfl
@[simp] theorem clearBtf_script (s : State) : (clearBtf s).script = s.script := rfl
@[simp] theorem clearBtf_tick (s : State) : (clearBtf s).tick = s.tick := rfl

/-! ### clearErr -/

@[simp] theorem clearErr_params (c : ErCase) (s : State) : (clearErr c s).params = s.params := by cases c <;> rfl
@[simp] theorem clearErr_queue (c : ErCase) (s : State) : (clearErr c s).queue = s.queue := by cases c <;> rfl
@[simp] theorem clearErr_cursor (c : ErCase) (s : State) : (clearErr c s).cursor = s.cursor := by cases c <;> rfl
@[simp] theorem clearErr_slots (c : ErCase) (s : State) : (clearErr c s).slots = s.slots := by cases c <;> rfl
@[simp] theorem clearErr_head (c : ErCase) (s : State) : (clearErr c s).head = s.head := by cases c <;> rfl
@[simp] theorem clearErr_armed (c : ErCase) (s : State) : (clearErr c s).armed = s.armed := by cases c <;> rfl
@[simp] theorem clearErr_waitStop (c : ErCase) (s : State) : (clearErr c s).waitStop = s.waitStop := by cases c <;> rfl
@[simp] theorem clearErr_faults (c : ErCase) (s : State) : (clearErr c s).faults = s.faults := by cases c <;> rfl
@[simp] theorem clearErr_cr1 (c : ErCase) (s : State) : (clearErr c s).cr1 = s.cr1 := by cases c <;> rfl
@[simp] theorem clearErr_cr2 (c : ErCase) (s : State) : (clearErr c s).cr2 = s.cr2 := by cases c <;> rfl
@[simp] theorem clearErr_sr2 (c : ErCase) (s : State) : (clearErr c s).sr2 = s.sr2 := by cases c <;> rfl
@[simp] theorem clearErr_drTx (c : ErCase) (s : State) : (clearErr c s).drTx = s.drTx := by cases c <;> rfl
@[simp] theorem clearErr_drRx (c : ErCase) (s : State) : (clearErr c s).drRx = s.drRx := by cases c <;> rfl
@[simp] theorem clearErr_mem (c : ErCase) (s : State) : (clearErr c s).mem = s.mem := by cases c <;> rfl
@[simp] theorem clearErr_held (c : ErCase) (s : State) : (clearErr c s).held = s.held := by cases c <;> rfl
@[simp] theorem clearErr_mode (c : ErCase) (s : State) : (clearErr c s).mode = s.mode := by cases c <;> rfl
@[simp] theorem clearErr_wire (c : ErCase) (s : State) : (clearErr c s).wire = s.wire := by cases c <;> rfl
@[simp] theorem clearErr_results (c : ErCase) (s : State) : (clearErr c s).results = s.results := by cases c <;> rfl
@[simp] theorem clearErr_loans (c : ErCase) (s : State) : (clearErr c s).loans = s.loans := by cases c <;> rfl
@[simp] theorem clearErr_blocked (c : ErCase) (s : State) : (clearErr c s).blocked = s.blocked := by cases c <;> rfl
@[simp] theorem clearErr_critical (c : ErCase) (s : State) : (clearErr c s).critical = s.critical := by cases c <;> rfl
@[simp] theorem clearErr_raised (c : ErCase) (s : State) : (clearErr c s).raised = s.raised := by cases c <;> rfl
@[simp] theorem clearErr_script (c : ErCase) (s : State) : (clearErr c s).script = s.script := by cases c <;> rfl
@[simp] theorem clearErr_tick (c : ErCase) (s : State) : (clearErr c s).tick = s.tick := by cases c <;> rfl

/-! ### setFault -/

@[simp] theorem setFault_params (f : ModelFault) (s : State) : (setFault f s).params = s.params := by cases f <;> rfl
@[simp] theorem setFault_queue (f : ModelFault) (s : State) : (setFault f s).queue = s.queue := by cases f <;> rfl
@[simp] theorem setFault_cursor (f : ModelFault) (s : State) : (setFault f s).cursor = s.cursor := by cases f <;> rfl
@[simp] theorem setFault_slots (f : ModelFault) (s : State) : (setFault f s).slots = s.slots := by cases f <;> rfl
@[simp] theorem setFault_head (f : ModelFault) (s : State) : (setFault f s).head = s.head := by cases f <;> rfl
@[simp] theorem setFault_armed (f : ModelFault) (s : State) : (setFault f s).armed = s.armed := by cases f <;> rfl
@[simp] theorem setFault_waitStop (f : ModelFault) (s : State) : (setFault f s).waitStop = s.waitStop := by cases f <;> rfl
@[simp] theorem setFault_cr1 (f : ModelFault) (s : State) : (setFault f s).cr1 = s.cr1 := by cases f <;> rfl
@[simp] theorem setFault_cr2 (f : ModelFault) (s : State) : (setFault f s).cr2 = s.cr2 := by cases f <;> rfl
@[simp] theorem setFault_sr1 (f : ModelFault) (s : State) : (setFault f s).sr1 = s.sr1 := by cases f <;> rfl
@[simp] theorem setFault_sr2 (f : ModelFault) (s : State) : (setFault f s).sr2 = s.sr2 := by cases f <;> rfl
@[simp] theorem setFault_drTx (f : ModelFault) (s : State) : (setFault f s).drTx = s.drTx := by cases f <;> rfl
@[simp] theorem setFault_drRx (f : ModelFault) (s : State) : (setFault f s).drRx = s.drRx := by cases f <;> rfl
@[simp] theorem setFault_mem (f : ModelFault) (s : State) : (setFault f s).mem = s.mem := by cases f <;> rfl
@[simp] theorem setFault_held (f : ModelFault) (s : State) : (setFault f s).held = s.held := by cases f <;> rfl
@[simp] theorem setFault_mode (f : ModelFault) (s : State) : (setFault f s).mode = s.mode := by cases f <;> rfl
@[simp] theorem setFault_wire (f : ModelFault) (s : State) : (setFault f s).wire = s.wire := by cases f <;> rfl
@[simp] theorem setFault_results (f : ModelFault) (s : State) : (setFault f s).results = s.results := by cases f <;> rfl
@[simp] theorem setFault_loans (f : ModelFault) (s : State) : (setFault f s).loans = s.loans := by cases f <;> rfl
@[simp] theorem setFault_blocked (f : ModelFault) (s : State) : (setFault f s).blocked = s.blocked := by cases f <;> rfl
@[simp] theorem setFault_critical (f : ModelFault) (s : State) : (setFault f s).critical = s.critical := by cases f <;> rfl
@[simp] theorem setFault_raised (f : ModelFault) (s : State) : (setFault f s).raised = s.raised := by cases f <;> rfl
@[simp] theorem setFault_script (f : ModelFault) (s : State) : (setFault f s).script = s.script := by cases f <;> rfl
@[simp] theorem setFault_tick (f : ModelFault) (s : State) : (setFault f s).tick = s.tick := by cases f <;> rfl

/-! ### issueStart -/

@[simp] theorem issueStart_params (s : State) : (issueStart s).params = s.params := rfl
@[simp] theorem issueStart_queue (s : State) : (issueStart s).queue = s.queue := rfl
@[simp] theorem issueStart_cursor (s : State) : (issueStart s).cursor = s.cursor := rfl
@[simp] theorem issueStart_slots (s : State) : (issueStart s).slots = s.slots := rfl
@[simp] theorem issueStart_head (s : State) : (issueStart s).head = s.head := rfl
@[simp] theorem issueStart_armed (s : State) : (issueStart s).armed = s.armed := rfl
@[simp] theorem issueStart_waitStop (s : State) : (issueStart s).waitStop = s.waitStop := rfl
@[simp] theorem issueStart_faults (s : State) : (issueStart s).faults = s.faults := rfl
@[simp] theorem issueStart_cr1 (s : State) : (issueStart s).cr1 = { s.cr1 with ack := true, start := true } := rfl
@[simp] theorem issueStart_cr2 (s : State) : (issueStart s).cr2 = s.cr2 := rfl
@[simp] theorem issueStart_sr1 (s : State) : (issueStart s).sr1 = s.sr1 := rfl
@[simp] theorem issueStart_sr2 (s : State) : (issueStart s).sr2 = s.sr2 := rfl
@[simp] theorem issueStart_drTx (s : State) : (issueStart s).drTx = s.drTx := rfl
@[simp] theorem issueStart_drRx (s : State) : (issueStart s).drRx = s.drRx := rfl
@[simp] theorem issueStart_mem (s : State) : (issueStart s).mem = s.mem := rfl
@[simp] theorem issueStart_held (s : State) : (issueStart s).held = s.held := rfl
@[simp] theorem issueStart_mode (s : State) : (issueStart s).mode = s.mode := rfl
@[simp] theorem issueStart_wire (s : State) : (issueStart s).wire = s.wire := rfl
@[simp] theorem issueStart_results (s : State) : (issueStart s).results = s.results := rfl
@[simp] theorem issueStart_loans (s : State) : (issueStart s).loans = s.loans := rfl
@[simp] theorem issueStart_blocked (s : State) : (issueStart s).blocked = s.blocked := rfl
@[simp] theorem issueStart_critical (s : State) : (issueStart s).critical = s.critical := rfl
@[simp] theorem issueStart_raised (s : State) : (issueStart s).raised = s.raised := rfl
@[simp] theorem issueStart_script (s : State) : (issueStart s).script = s.script := rfl
@[simp] theorem issueStart_tick (s : State) : (issueStart s).tick = s.tick := rfl

/-! ### requestStop -/

@[simp] theorem requestStop_params (s : State) : (requestStop s).params = s.params := rfl
@[simp] theorem requestStop_queue (s : State) : (requestStop s).queue = s.queue := rfl
@[simp] theorem requestStop_cursor (s : State) : (requestStop s).cursor = s.cursor := rfl
@[simp] theorem requestStop_slots (s : State) : (requestStop s).slots = s.slots := rfl
@[simp] theorem requestStop_head (s : State) : (requestStop s).head = s.head := rfl
@[simp] theorem requestStop_armed (s : State) : (requestStop s).armed = s.armed := rfl
@[simp] theorem requestStop_waitStop (s : State) : (requestStop s).waitStop = s.waitStop := rfl
@[simp] theorem requestStop_faults (s : State) : (requestStop s).faults = s.faults := rfl
@[simp] theorem requestStop_cr1 (s : State) : (requestStop s).cr1 = { s.cr1 with stop := true } := rfl
@[simp] theorem requestStop_cr2 (s : State) : (requestStop s).cr2 = s.cr2 := rfl
@[simp] theorem requestStop_sr1 (s : State) : (requestStop s).sr1 = s.sr1 := rfl
@[simp] theorem requestStop_sr2 (s : State) : (requestStop s).sr2 = s.sr2 := rfl
@[simp] theorem requestStop_drTx (s : State) : (requestStop s).drTx = s.drTx := rfl
@[simp] theorem requestStop_drRx (s : State) : (requestStop s).drRx = s.drRx := rfl
@[simp] theorem requestStop_mem (s : State) : (requestStop s).mem = s.mem := rfl
@[simp] theorem requestStop_held (s : State) : (requestStop s).held = s.held := rfl
@[simp] theorem requestStop_mode (s : State) : (requestStop s).mode = s.mode := rfl
@[simp] theorem requestStop_wire (s : State) : (requestStop s).wire = s.wire := rfl
@[simp] theorem requestStop_results (s : State) : (requestStop s).results = s.results := rfl
@[simp] theorem requestStop_loans (s : State) : (requestStop s).loans = s.loans := rfl
@[simp] theorem requestStop_blocked (s : State) : (requestStop s).blocked = s.blocked := rfl
@[simp] theorem requestStop_critical (s : State) : (requestStop s).critical = s.critical := rfl
@[simp] theorem requestStop_raised (s : State) : (requestStop s).raised = s.raised := rfl
@[simp] theorem requestStop_script (s : State) : (requestStop s).script = s.script := rfl
@[simp] theorem requestStop_tick (s : State) : (requestStop s).tick = s.tick := rfl

/-! ### dropAck -/

@[simp] theorem dropAck_params (s : State) : (dropAck s).params = s.params := rfl
@[simp] theorem dropAck_queue (s : State) : (dropAck s).queue = s.queue := rfl
@[simp] theorem dropAck_cursor (s : State) : (dropAck s).cursor = s.cursor := rfl
@[simp] theorem dropAck_slots (s : State) : (dropAck s).slots = s.slots := rfl
@[simp] theorem dropAck_head (s : State) : (dropAck s).head = s.head := rfl
@[simp] theorem dropAck_armed (s : State) : (dropAck s).armed = s.armed := rfl
@[simp] theorem dropAck_waitStop (s : State) : (dropAck s).waitStop = s.waitStop := rfl
@[simp] theorem dropAck_faults (s : State) : (dropAck s).faults = s.faults := rfl
@[simp] theorem dropAck_cr1 (s : State) : (dropAck s).cr1 = { s.cr1 with ack := false } := rfl
@[simp] theorem dropAck_cr2 (s : State) : (dropAck s).cr2 = s.cr2 := rfl
@[simp] theorem dropAck_sr1 (s : State) : (dropAck s).sr1 = s.sr1 := rfl
@[simp] theorem dropAck_sr2 (s : State) : (dropAck s).sr2 = s.sr2 := rfl
@[simp] theorem dropAck_drTx (s : State) : (dropAck s).drTx = s.drTx := rfl
@[simp] theorem dropAck_drRx (s : State) : (dropAck s).drRx = s.drRx := rfl
@[simp] theorem dropAck_mem (s : State) : (dropAck s).mem = s.mem := rfl
@[simp] theorem dropAck_held (s : State) : (dropAck s).held = s.held := rfl
@[simp] theorem dropAck_mode (s : State) : (dropAck s).mode = s.mode := rfl
@[simp] theorem dropAck_wire (s : State) : (dropAck s).wire = s.wire := rfl
@[simp] theorem dropAck_results (s : State) : (dropAck s).results = s.results := rfl
@[simp] theorem dropAck_loans (s : State) : (dropAck s).loans = s.loans := rfl
@[simp] theorem dropAck_blocked (s : State) : (dropAck s).blocked = s.blocked := rfl
@[simp] theorem dropAck_critical (s : State) : (dropAck s).critical = s.critical := rfl
@[simp] theorem dropAck_raised (s : State) : (dropAck s).raised = s.raised := rfl
@[simp] theorem dropAck_script (s : State) : (dropAck s).script = s.script := rfl
@[simp] theorem dropAck_tick (s : State) : (dropAck s).tick = s.tick := rfl

/-! ### arm -/

@[simp] theorem arm_params (s : State) : (arm s).params = s.params := rfl
@[simp] theorem arm_queue (s : State) : (arm s).queue = s.queue := rfl
@[simp] theorem arm_cursor (s : State) : (arm s).cursor = s.cursor := rfl
@[simp] theorem arm_slots (s : State) : (arm s).slots = s.slots := rfl
@[simp] theorem arm_head (s : State) : (arm s).head = s.head := rfl
@[simp] theorem arm_armed (s : State) : (arm s).armed = true := rfl
@[simp] theorem arm_waitStop (s : State) : (arm s).waitStop = s.waitStop := rfl
@[simp] theorem arm_faults (s : State) : (arm s).faults = s.faults := rfl
@[simp] theorem arm_cr1 (s : State) : (arm s).cr1 = s.cr1 := rfl
@[simp] theorem arm_cr2 (s : State) : (arm s).cr2 = s.cr2 := rfl
@[simp] theorem arm_sr1 (s : State) : (arm s).sr1 = s.sr1 := rfl
@[simp] theorem arm_sr2 (s : State) : (arm s).sr2 = s.sr2 := rfl
@[simp] theorem arm_drTx (s : State) : (arm s).drTx = s.drTx := rfl
@[simp] theorem arm_drRx (s : State) : (arm s).drRx = s.drRx := rfl
@[simp] theorem arm_mem (s : State) : (arm s).mem = s.mem := rfl
@[simp] theorem arm_held (s : State) : (arm s).held = s.held := rfl
@[simp] theorem arm_mode (s : State) : (arm s).mode = s.mode := rfl
@[simp] theorem arm_wire (s : State) : (arm s).wire = s.wire := rfl
@[simp] theorem arm_results (s : State) : (arm s).results = s.results := rfl
@[simp] theorem arm_loans (s : State) : (arm s).loans = s.loans := rfl
@[simp] theorem arm_blocked (s : State) : (arm s).blocked = s.blocked := rfl
@[simp] theorem arm_critical (s : State) : (arm s).critical = s.critical := rfl
@[simp] theorem arm_raised (s : State) : (arm s).raised = s.raised := rfl
@[simp] theorem arm_script (s : State) : (arm s).script = s.script := rfl
@[simp] theorem arm_tick (s : State) : (arm s).tick = s.tick := rfl

/-! ### disarm -/

@[simp] theorem disarm_params (s : State) : (disarm s).params = s.params := rfl
@[simp] theorem disarm_queue (s : State) : (disarm s).queue = s.queue := rfl
@[simp] theorem disarm_cursor (s : State) : (disarm s).cursor = s.cursor := rfl
@[simp] theorem disarm_slots (s : State) : (disarm s).slots = s.slots := rfl
@[simp] theorem disarm_head (s : State) : (disarm s).head = s.head := rfl
@[simp] theorem disarm_armed (s : State) : (disarm s).armed = false := rfl
@[simp] theorem disarm_waitStop (s : State) : (disarm s).waitStop = s.waitStop := rfl
@[simp] theorem disarm_faults (s : State) : (disarm s).faults = s.faults := rfl
@[simp] theorem disarm_cr1 (s : State) : (disarm s).cr1 = s.cr1 := rfl
@[simp] theorem disarm_cr2 (s : State) : (disarm s).cr2 = s.cr2 := rfl
@[simp] theorem disarm_sr1 (s : State) : (disarm s).sr1 = s.sr1 := rfl
@[simp] theorem disarm_sr2 (s : State) : (disarm s).sr2 = s.sr2 := rfl
@[simp] theorem disarm_drTx (s : State) : (disarm s).drTx = s.drTx := rfl
@[simp] theorem disarm_drRx (s : State) : (disarm s).drRx = s.drRx := rfl
@[simp] theorem disarm_mem (s : State) : (disarm s).mem = s.mem := rfl
@[simp] theorem disarm_held (s : State) : (disarm s).held = s.held := rfl
@[simp] theorem disarm_mode (s : State) : (disarm s).mode = s.mode := rfl
@[simp] theorem disarm_wire (s : State) : (disarm s).wire = s.wire := rfl
@[simp] theorem disarm_results (s : State) : (disarm s).results = s.results := rfl
@[simp] theorem disarm_loans (s : State) : (disarm s).loans = s.loans := rfl
@[simp] theorem disarm_blocked (s : State) : (disarm s).blocked = s.blocked := rfl
@[simp] theorem disarm_critical (s : State) : (disarm s).critical = s.critical := rfl
@[simp] theorem disarm_raised (s : State) : (disarm s).raised = s.raised := rfl
@[simp] theorem disarm_script (s : State) : (disarm s).script = s.script := rfl
@[simp] theorem disarm_tick (s : State) : (disarm s).tick = s.tick := rfl

/-! ### setPhase -/

@[simp] theorem setPhase_params (i : Nat) (p : Phase) (s : State) : (setPhase i p s).params = s.params := rfl
@[simp] theorem setPhase_queue (i : Nat) (p : Phase) (s : State) : (setPhase i p s).queue = s.queue := rfl
@[simp] theorem setPhase_cursor (i : Nat) (p : Phase) (s : State) : (setPhase i p s).cursor = s.cursor := rfl
@[simp] theorem setPhase_slots (i : Nat) (p : Phase) (s : State) : (setPhase i p s).slots = s.slots.set i p := rfl
@[simp] theorem setPhase_head (i : Nat) (p : Phase) (s : State) : (setPhase i p s).head = s.head := rfl
@[simp] theorem setPhase_armed (i : Nat) (p : Phase) (s : State) : (setPhase i p s).armed = s.armed := rfl
@[simp] theorem setPhase_waitStop (i : Nat) (p : Phase) (s : State) : (setPhase i p s).waitStop = s.waitStop := rfl
@[simp] theorem setPhase_faults (i : Nat) (p : Phase) (s : State) : (setPhase i p s).faults = s.faults := rfl
@[simp] theorem setPhase_cr1 (i : Nat) (p : Phase) (s : State) : (setPhase i p s).cr1 = s.cr1 := rfl
@[simp] theorem setPhase_cr2 (i : Nat) (p : Phase) (s : State) : (setPhase i p s).cr2 = s.cr2 := rfl
@[simp] theorem setPhase_sr1 (i : Nat) (p : Phase) (s : State) : (setPhase i p s).sr1 = s.sr1 := rfl
@[simp] theorem setPhase_sr2 (i : Nat) (p : Phase) (s : State) : (setPhase i p s).sr2 = s.sr2 := rfl
@[simp] theorem setPhase_drTx (i : Nat) (p : Phase) (s : State) : (setPhase i p s).drTx = s.drTx := rfl
@[simp] theorem setPhase_drRx (i : Nat) (p : Phase) (s : State) : (setPhase i p s).drRx = s.drRx := rfl
@[simp] theorem setPhase_mem (i : Nat) (p : Phase) (s : State) : (setPhase i p s).mem = s.mem := rfl
@[simp] theorem setPhase_held (i : Nat) (p : Phase) (s : State) : (setPhase i p s).held = s.held := rfl
@[simp] theorem setPhase_mode (i : Nat) (p : Phase) (s : State) : (setPhase i p s).mode = s.mode := rfl
@[simp] theorem setPhase_wire (i : Nat) (p : Phase) (s : State) : (setPhase i p s).wire = s.wire := rfl
@[simp] theorem setPhase_results (i : Nat) (p : Phase) (s : State) : (setPhase i p s).results = s.results := rfl
@[simp] theorem setPhase_loans (i : Nat) (p : Phase) (s : State) : (setPhase i p s).loans = s.loans := rfl
@[simp] theorem setPhase_blocked (i : Nat) (p : Phase) (s : State) : (setPhase i p s).blocked = s.blocked := rfl
@[simp] theorem setPhase_critical (i : Nat) (p : Phase) (s : State) : (setPhase i p s).critical = s.critical := rfl
@[simp] theorem setPhase_raised (i : Nat) (p : Phase) (s : State) : (setPhase i p s).raised = s.raised := rfl
@[simp] theorem setPhase_script (i : Nat) (p : Phase) (s : State) : (setPhase i p s).script = s.script := rfl
@[simp] theorem setPhase_tick (i : Nat) (p : Phase) (s : State) : (setPhase i p s).tick = s.tick := rfl

/-! ### setHeadPhase -/

@[simp] theorem setHeadPhase_params (p : Phase) (s : State) : (setHeadPhase p s).params = s.params := rfl
@[simp] theorem setHeadPhase_queue (p : Phase) (s : State) : (setHeadPhase p s).queue = s.queue := rfl
@[simp] theorem setHeadPhase_cursor (p : Phase) (s : State) : (setHeadPhase p s).cursor = s.cursor := rfl
@[simp] theorem setHeadPhase_slots (p : Phase) (s : State) : (setHeadPhase p s).slots = s.slots.set s.head p := rfl
@[simp] theorem setHeadPhase_head (p : Phase) (s : State) : (setHeadPhase p s).head = s.head := rfl
@[simp] theorem setHeadPhase_armed (p : Phase) (s : State) : (setHeadPhase p s).armed = s.armed := rfl
@[simp] theorem setHeadPhase_waitStop (p : Phase) (s : State) : (setHeadPhase p s).waitStop = s.waitStop := rfl
@[simp] theorem setHeadPhase_faults (p : Phase) (s : State) : (setHeadPhase p s).faults = s.faults := rfl
@[simp] theorem setHeadPhase_cr1 (p : Phase) (s : State) : (setHeadPhase p s).cr1 = s.cr1 := rfl
@[simp] theorem setHeadPhase_cr2 (p : Phase) (s : State) : (setHeadPhase p s).cr2 = s.cr2 := rfl
@[simp] theorem setHeadPhase_sr1 (p : Phase) (s : State) : (setHeadPhase p s).sr1 = s.sr1 := rfl
@[simp] theorem setHeadPhase_sr2 (p : Phase) (s : State) : (setHeadPhase p s).sr2 = s.sr2 := rfl
@[simp] theorem setHeadPhase_drTx (p : Phase) (s : State) : (setHeadPhase p s).drTx = s.drTx := rfl
@[simp] theorem setHeadPhase_drRx (p : Phase) (s : State) : (setHeadPhase p s).drRx = s.drRx := rfl
@[simp] theorem setHeadPhase_mem (p : Phase) (s : State) : (setHeadPhase p s).mem = s.mem := rfl
@[simp] theorem setHeadPhase_held (p : Phase) (s : State) : (setHeadPhase p s).held = s.held := rfl
@[simp] theorem setHeadPhase_mode (p : Phase) (s : State) : (setHeadPhase p s).mode = s.mode := rfl
@[simp] theorem setHeadPhase_wire (p : Phase) (s : State) : (setHeadPhase p s).wire = s.wire := rfl
@[simp] theorem setHeadPhase_results (p : Phase) (s : State) : (setHeadPhase p s).results = s.results := rfl
@[simp] theorem setHeadPhase_loans (p : Phase) (s : State) : (setHeadPhase p s).loans = s.loans := rfl
@[simp] theorem setHeadPhase_blocked (p : Phase) (s : State) : (setHeadPhase p s).blocked = s.blocked := rfl
@[simp] theorem setHeadPhase_critical (p : Phase) (s : State) : (setHeadPhase p s).critical = s.critical := rfl
@[simp] theorem setHeadPhase_raised (p : Phase) (s : State) : (setHeadPhase p s).raised = s.raised := rfl
@[simp] theorem setHeadPhase_script (p : Phase) (s : State) : (setHeadPhase p s).script = s.script := rfl
@[simp] theorem setHeadPhase_tick (p : Phase) (s : State) : (setHeadPhase p s).tick = s.tick := rfl

/-! ### writeDr -/

@[simp] theorem writeDr_params (b : Byte) (s : State) : (writeDr b s).params = s.params := rfl
@[simp] theorem writeDr_queue (b : Byte) (s : State) : (writeDr b s).queue = s.queue := rfl
@[simp] theorem writeDr_cursor (b : Byte) (s : State) : (writeDr b s).cursor = s.cursor := rfl
@[simp] theorem writeDr_slots (b : Byte) (s : State) : (writeDr b s).slots = s.slots := rfl
@[simp] theorem writeDr_head (b : Byte) (s : State) : (writeDr b s).head = s.head := rfl
@[simp] theorem writeDr_armed (b : Byte) (s : State) : (writeDr b s).armed = s.armed := rfl
@[simp] theorem writeDr_waitStop (b : Byte) (s : State) : (writeDr b s).waitStop = s.waitStop := rfl
@[simp] theorem writeDr_faults (b : Byte) (s : State) : (writeDr b s).faults = s.faults := rfl
@[simp] theorem writeDr_cr1 (b : Byte) (s : State) : (writeDr b s).cr1 = s.cr1 := rfl
@[simp] theorem writeDr_cr2 (b : Byte) (s : State) : (writeDr b s).cr2 = s.cr2 := rfl
@[simp] theorem writeDr_sr1 (b : Byte) (s : State) : (writeDr b s).sr1 = s.sr1 := rfl
@[simp] theorem writeDr_sr2 (b : Byte) (s : State) : (writeDr b s).sr2 = s.sr2 := rfl
@[simp] theorem writeDr_drTx (b : Byte) (s : State) : (writeDr b s).drTx = b := rfl
@[simp] theorem writeDr_drRx (b : Byte) (s : State) : (writeDr b s).drRx = s.drRx := rfl
@[simp] theorem writeDr_mem (b : Byte) (s : State) : (writeDr b s).mem = s.mem := rfl
@[simp] theorem writeDr_held (b : Byte) (s : State) : (writeDr b s).held = s.held := rfl
@[simp] theorem writeDr_mode (b : Byte) (s : State) : (writeDr b s).mode = busTake b s.mode := rfl
@[simp] theorem writeDr_wire (b : Byte) (s : State) : (writeDr b s).wire = s.wire := rfl
@[simp] theorem writeDr_results (b : Byte) (s : State) : (writeDr b s).results = s.results := rfl
@[simp] theorem writeDr_loans (b : Byte) (s : State) : (writeDr b s).loans = s.loans := rfl
@[simp] theorem writeDr_blocked (b : Byte) (s : State) : (writeDr b s).blocked = s.blocked := rfl
@[simp] theorem writeDr_critical (b : Byte) (s : State) : (writeDr b s).critical = s.critical := rfl
@[simp] theorem writeDr_raised (b : Byte) (s : State) : (writeDr b s).raised = s.raised := rfl
@[simp] theorem writeDr_script (b : Byte) (s : State) : (writeDr b s).script = s.script := rfl
@[simp] theorem writeDr_tick (b : Byte) (s : State) : (writeDr b s).tick = s.tick := rfl

/-! ### giveResult -/

@[simp] theorem giveResult_params (r : TaskResult) (s : State) : (giveResult r s).params = s.params := rfl
@[simp] theorem giveResult_queue (r : TaskResult) (s : State) : (giveResult r s).queue = s.queue := rfl
@[simp] theorem giveResult_cursor (r : TaskResult) (s : State) : (giveResult r s).cursor = s.cursor := rfl
@[simp] theorem giveResult_slots (r : TaskResult) (s : State) : (giveResult r s).slots = s.slots := rfl
@[simp] theorem giveResult_head (r : TaskResult) (s : State) : (giveResult r s).head = s.head := rfl
@[simp] theorem giveResult_armed (r : TaskResult) (s : State) : (giveResult r s).armed = s.armed := rfl
@[simp] theorem giveResult_waitStop (r : TaskResult) (s : State) : (giveResult r s).waitStop = s.waitStop := rfl
@[simp] theorem giveResult_faults (r : TaskResult) (s : State) : (giveResult r s).faults = s.faults := rfl
@[simp] theorem giveResult_cr1 (r : TaskResult) (s : State) : (giveResult r s).cr1 = s.cr1 := rfl
@[simp] theorem giveResult_cr2 (r : TaskResult) (s : State) : (giveResult r s).cr2 = s.cr2 := rfl
@[simp] theorem giveResult_sr1 (r : TaskResult) (s : State) : (giveResult r s).sr1 = s.sr1 := rfl
@[simp] theorem giveResult_sr2 (r : TaskResult) (s : State) : (giveResult r s).sr2 = s.sr2 := rfl
@[simp] theorem giveResult_drTx (r : TaskResult) (s : State) : (giveResult r s).drTx = s.drTx := rfl
@[simp] theorem giveResult_drRx (r : TaskResult) (s : State) : (giveResult r s).drRx = s.drRx := rfl
@[simp] theorem giveResult_mem (r : TaskResult) (s : State) : (giveResult r s).mem = s.mem := rfl
@[simp] theorem giveResult_held (r : TaskResult) (s : State) : (giveResult r s).held = s.held := rfl
@[simp] theorem giveResult_mode (r : TaskResult) (s : State) : (giveResult r s).mode = s.mode := rfl
@[simp] theorem giveResult_wire (r : TaskResult) (s : State) : (giveResult r s).wire = s.wire := rfl
@[simp] theorem giveResult_results (r : TaskResult) (s : State) : (giveResult r s).results = s.results ++ [r] := rfl
@[simp] theorem giveResult_loans (r : TaskResult) (s : State) : (giveResult r s).loans = s.loans := rfl
@[simp] theorem giveResult_blocked (r : TaskResult) (s : State) : (giveResult r s).blocked = s.blocked := rfl
@[simp] theorem giveResult_critical (r : TaskResult) (s : State) : (giveResult r s).critical = s.critical := rfl
@[simp] theorem giveResult_raised (r : TaskResult) (s : State) : (giveResult r s).raised = s.raised := rfl
@[simp] theorem giveResult_script (r : TaskResult) (s : State) : (giveResult r s).script = s.script := rfl
@[simp] theorem giveResult_tick (r : TaskResult) (s : State) : (giveResult r s).tick = s.tick := rfl

/-! ### endLoans -/

@[simp] theorem endLoans_params (k : Nat) (s : State) : (endLoans k s).params = s.params := rfl
@[simp] theorem endLoans_queue (k : Nat) (s : State) : (endLoans k s).queue = s.queue := rfl
@[simp] theorem endLoans_cursor (k : Nat) (s : State) : (endLoans k s).cursor = s.cursor := rfl
@[simp] theorem endLoans_slots (k : Nat) (s : State) : (endLoans k s).slots = s.slots := rfl
@[simp] theorem endLoans_head (k : Nat) (s : State) : (endLoans k s).head = s.head := rfl
@[simp] theorem endLoans_armed (k : Nat) (s : State) : (endLoans k s).armed = s.armed := rfl
@[simp] theorem endLoans_waitStop (k : Nat) (s : State) : (endLoans k s).waitStop = s.waitStop := rfl
@[simp] theorem endLoans_faults (k : Nat) (s : State) : (endLoans k s).faults = s.faults := rfl
@[simp] theorem endLoans_cr1 (k : Nat) (s : State) : (endLoans k s).cr1 = s.cr1 := rfl
@[simp] theorem endLoans_cr2 (k : Nat) (s : State) : (endLoans k s).cr2 = s.cr2 := rfl
@[simp] theorem endLoans_sr1 (k : Nat) (s : State) : (endLoans k s).sr1 = s.sr1 := rfl
@[simp] theorem endLoans_sr2 (k : Nat) (s : State) : (endLoans k s).sr2 = s.sr2 := rfl
@[simp] theorem endLoans_drTx (k : Nat) (s : State) : (endLoans k s).drTx = s.drTx := rfl
@[simp] theorem endLoans_drRx (k : Nat) (s : State) : (endLoans k s).drRx = s.drRx := rfl
@[simp] theorem endLoans_mem (k : Nat) (s : State) : (endLoans k s).mem = s.mem := rfl
@[simp] theorem endLoans_held (k : Nat) (s : State) : (endLoans k s).held = s.held := rfl
@[simp] theorem endLoans_mode (k : Nat) (s : State) : (endLoans k s).mode = s.mode := rfl
@[simp] theorem endLoans_wire (k : Nat) (s : State) : (endLoans k s).wire = s.wire := rfl
@[simp] theorem endLoans_results (k : Nat) (s : State) : (endLoans k s).results = s.results := rfl
@[simp] theorem endLoans_loans (k : Nat) (s : State) : (endLoans k s).loans = s.loans.filter (fun l => decide (l.slot ≠ k)) := rfl
@[simp] theorem endLoans_blocked (k : Nat) (s : State) : (endLoans k s).blocked = s.blocked := rfl
@[simp] theorem endLoans_critical (k : Nat) (s : State) : (endLoans k s).critical = s.critical := rfl
@[simp] theorem endLoans_raised (k : Nat) (s : State) : (endLoans k s).raised = s.raised := rfl
@[simp] theorem endLoans_script (k : Nat) (s : State) : (endLoans k s).script = s.script := rfl
@[simp] theorem endLoans_tick (k : Nat) (s : State) : (endLoans k s).tick = s.tick := rfl

/-! ### popCommand -/

@[simp] theorem popCommand_params (s : State) : (popCommand s).params = s.params := rfl
@[simp] theorem popCommand_queue (s : State) : (popCommand s).queue = s.queue.tail := rfl
@[simp] theorem popCommand_cursor (s : State) : (popCommand s).cursor = 0 := rfl
@[simp] theorem popCommand_slots (s : State) : (popCommand s).slots = s.slots := rfl
@[simp] theorem popCommand_head (s : State) : (popCommand s).head = s.head := rfl
@[simp] theorem popCommand_armed (s : State) : (popCommand s).armed = s.armed := rfl
@[simp] theorem popCommand_waitStop (s : State) : (popCommand s).waitStop = s.waitStop := rfl
@[simp] theorem popCommand_faults (s : State) : (popCommand s).faults = s.faults := rfl
@[simp] theorem popCommand_cr1 (s : State) : (popCommand s).cr1 = s.cr1 := rfl
@[simp] theorem popCommand_cr2 (s : State) : (popCommand s).cr2 = s.cr2 := rfl
@[simp] theorem popCommand_sr1 (s : State) : (popCommand s).sr1 = s.sr1 := rfl
@[simp] theorem popCommand_sr2 (s : State) : (popCommand s).sr2 = s.sr2 := rfl
@[simp] theorem popCommand_drTx (s : State) : (popCommand s).drTx = s.drTx := rfl
@[simp] theorem popCommand_drRx (s : State) : (popCommand s).drRx = s.drRx := rfl
@[simp] theorem popCommand_mem (s : State) : (popCommand s).mem = s.mem := rfl
@[simp] theorem popCommand_held (s : State) : (popCommand s).held = s.held := rfl
@[simp] theorem popCommand_mode (s : State) : (popCommand s).mode = s.mode := rfl
@[simp] theorem popCommand_wire (s : State) : (popCommand s).wire = s.wire := rfl
@[simp] theorem popCommand_results (s : State) : (popCommand s).results = s.results := rfl
@[simp] theorem popCommand_loans (s : State) : (popCommand s).loans = s.loans := rfl
@[simp] theorem popCommand_blocked (s : State) : (popCommand s).blocked = s.blocked := rfl
@[simp] theorem popCommand_critical (s : State) : (popCommand s).critical = s.critical := rfl
@[simp] theorem popCommand_raised (s : State) : (popCommand s).raised = s.raised := rfl
@[simp] theorem popCommand_script (s : State) : (popCommand s).script = s.script := rfl
@[simp] theorem popCommand_tick (s : State) : (popCommand s).tick = s.tick := rfl

/-! ### storeReceived -/

@[simp] theorem storeReceived_params (c : DataCmd) (s : State) : (storeReceived c s).params = s.params := rfl
@[simp] theorem storeReceived_queue (c : DataCmd) (s : State) : (storeReceived c s).queue = s.queue := rfl
@[simp] theorem storeReceived_cursor (c : DataCmd) (s : State) : (storeReceived c s).cursor = s.cursor + 1 := rfl
@[simp] theorem storeReceived_slots (c : DataCmd) (s : State) : (storeReceived c s).slots = s.slots := rfl
@[simp] theorem storeReceived_head (c : DataCmd) (s : State) : (storeReceived c s).head = s.head := rfl
@[simp] theorem storeReceived_armed (c : DataCmd) (s : State) : (storeReceived c s).armed = s.armed := rfl
@[simp] theorem storeReceived_waitStop (c : DataCmd) (s : State) : (storeReceived c s).waitStop = s.waitStop := rfl
@[simp] theorem storeReceived_faults (c : DataCmd) (s : State) : (storeReceived c s).faults = s.faults := rfl
@[simp] theorem storeReceived_cr1 (c : DataCmd) (s : State) : (storeReceived c s).cr1 = s.cr1 := rfl
@[simp] theorem storeReceived_cr2 (c : DataCmd) (s : State) : (storeReceived c s).cr2 = s.cr2 := rfl
@[simp] theorem storeReceived_sr1 (c : DataCmd) (s : State) : (storeReceived c s).sr1 = s.sr1 := rfl
@[simp] theorem storeReceived_sr2 (c : DataCmd) (s : State) : (storeReceived c s).sr2 = s.sr2 := rfl
@[simp] theorem storeReceived_drTx (c : DataCmd) (s : State) : (storeReceived c s).drTx = s.drTx := rfl
@[simp] theorem storeReceived_drRx (c : DataCmd) (s : State) : (storeReceived c s).drRx = s.drRx := rfl
@[simp] theorem storeReceived_mem (c : DataCmd) (s : State) : (storeReceived c s).mem = memWrite s.mem (bufAddr c.buf s.cursor) s.drRx := rfl
@[simp] theorem storeReceived_held (c : DataCmd) (s : State) : (storeReceived c s).held = s.held := rfl
@[simp] theorem storeReceived_mode (c : DataCmd) (s : State) : (storeReceived c s).mode = s.mode := rfl
@[simp] theorem storeReceived_wire (c : DataCmd) (s : State) : (storeReceived c s).wire = s.wire := rfl
@[simp] theorem storeReceived_results (c : DataCmd) (s : State) : (storeReceived c s).results = s.results := rfl
@[simp] theorem storeReceived_loans (c : DataCmd) (s : State) : (storeReceived c s).loans = s.loans := rfl
@[simp] theorem storeReceived_blocked (c : DataCmd) (s : State) : (storeReceived c s).blocked = s.blocked := rfl
@[simp] theorem storeReceived_critical (c : DataCmd) (s : State) : (storeReceived c s).critical = s.critical := rfl
@[simp] theorem storeReceived_raised (c : DataCmd) (s : State) : (storeReceived c s).raised = s.raised := rfl
@[simp] theorem storeReceived_script (c : DataCmd) (s : State) : (storeReceived c s).script = s.script := rfl
@[simp] theorem storeReceived_tick (c : DataCmd) (s : State) : (storeReceived c s).tick = s.tick := rfl

/-! ### beginStopWait -/

@[simp] theorem beginStopWait_params (s : State) : (beginStopWait s).params = s.params := rfl
@[simp] theorem beginStopWait_queue (s : State) : (beginStopWait s).queue = s.queue := rfl
@[simp] theorem beginStopWait_cursor (s : State) : (beginStopWait s).cursor = s.cursor := rfl
@[simp] theorem beginStopWait_slots (s : State) : (beginStopWait s).slots = s.slots := rfl
@[simp] theorem beginStopWait_head (s : State) : (beginStopWait s).head = s.head := rfl
@[simp] theorem beginStopWait_armed (s : State) : (beginStopWait s).armed = s.armed := rfl
@[simp] theorem beginStopWait_waitStop (s : State) : (beginStopWait s).waitStop = true := rfl
@[simp] theorem beginStopWait_faults (s : State) : (beginStopWait s).faults = s.faults := rfl
@[simp] theorem beginStopWait_cr1 (s : State) : (beginStopWait s).cr1 = s.cr1 := rfl
@[simp] theorem beginStopWait_cr2 (s : State) : (beginStopWait s).cr2 = s.cr2 := rfl
@[simp] theorem beginStopWait_sr1 (s : State) : (beginStopWait s).sr1 = s.sr1 := rfl
@[simp] theorem beginStopWait_sr2 (s : State) : (beginStopWait s).sr2 = s.sr2 := rfl
@[simp] theorem beginStopWait_drTx (s : State) : (beginStopWait s).drTx = s.drTx := rfl
@[simp] theorem beginStopWait_drRx (s : State) : (beginStopWait s).drRx = s.drRx := rfl
@[simp] theorem beginStopWait_mem (s : State) : (beginStopWait s).mem = s.mem := rfl
@[simp] theorem beginStopWait_held (s : State) : (beginStopWait s).held = s.held := rfl
@[simp] theorem beginStopWait_mode (s : State) : (beginStopWait s).mode = s.mode := rfl
@[simp] theorem beginStopWait_wire (s : State) : (beginStopWait s).wire = s.wire := rfl
@[simp] theorem beginStopWait_results (s : State) : (beginStopWait s).results = s.results := rfl
@[simp] theorem beginStopWait_loans (s : State) : (beginStopWait s).loans = s.loans := rfl
@[simp] theorem beginStopWait_blocked (s : State) : (beginStopWait s).blocked = s.blocked := rfl
@[simp] theorem beginStopWait_critical (s : State) : (beginStopWait s).critical = s.critical := rfl
@[simp] theorem beginStopWait_raised (s : State) : (beginStopWait s).raised = s.raised := rfl
@[simp] theorem beginStopWait_script (s : State) : (beginStopWait s).script = s.script := rfl
@[simp] theorem beginStopWait_tick (s : State) : (beginStopWait s).tick = s.tick := rfl

/-! ### holdBlock -/

@[simp] theorem holdBlock_params (k : Nat) (s : State) : (holdBlock k s).params = s.params := rfl
@[simp] theorem holdBlock_queue (k : Nat) (s : State) : (holdBlock k s).queue = s.queue := rfl
@[simp] theorem holdBlock_cursor (k : Nat) (s : State) : (holdBlock k s).cursor = s.cursor := rfl
@[simp] theorem holdBlock_slots (k : Nat) (s : State) : (holdBlock k s).slots = s.slots := rfl
@[simp] theorem holdBlock_head (k : Nat) (s : State) : (holdBlock k s).head = s.head := rfl
@[simp] theorem holdBlock_armed (k : Nat) (s : State) : (holdBlock k s).armed = s.armed := rfl
@[simp] theorem holdBlock_waitStop (k : Nat) (s : State) : (holdBlock k s).waitStop = s.waitStop := rfl
@[simp] theorem holdBlock_faults (k : Nat) (s : State) : (holdBlock k s).faults = s.faults := rfl
@[simp] theorem holdBlock_cr1 (k : Nat) (s : State) : (holdBlock k s).cr1 = s.cr1 := rfl
@[simp] theorem holdBlock_cr2 (k : Nat) (s : State) : (holdBlock k s).cr2 = s.cr2 := rfl
@[simp] theorem holdBlock_sr1 (k : Nat) (s : State) : (holdBlock k s).sr1 = s.sr1 := rfl
@[simp] theorem holdBlock_sr2 (k : Nat) (s : State) : (holdBlock k s).sr2 = s.sr2 := rfl
@[simp] theorem holdBlock_drTx (k : Nat) (s : State) : (holdBlock k s).drTx = s.drTx := rfl
@[simp] theorem holdBlock_drRx (k : Nat) (s : State) : (holdBlock k s).drRx = s.drRx := rfl
@[simp] theorem holdBlock_mem (k : Nat) (s : State) : (holdBlock k s).mem = s.mem := rfl
@[simp] theorem holdBlock_held (k : Nat) (s : State) : (holdBlock k s).held = s.held := rfl
@[simp] theorem holdBlock_mode (k : Nat) (s : State) : (holdBlock k s).mode = s.mode := rfl
@[simp] theorem holdBlock_wire (k : Nat) (s : State) : (holdBlock k s).wire = s.wire := rfl
@[simp] theorem holdBlock_results (k : Nat) (s : State) : (holdBlock k s).results = s.results := rfl
@[simp] theorem holdBlock_loans (k : Nat) (s : State) : (holdBlock k s).loans = s.loans := rfl
@[simp] theorem holdBlock_blocked (k : Nat) (s : State) : (holdBlock k s).blocked = s.blocked ++ [⟨k, s.critical, s.raised⟩] := rfl
@[simp] theorem holdBlock_critical (k : Nat) (s : State) : (holdBlock k s).critical = s.critical := rfl
@[simp] theorem holdBlock_raised (k : Nat) (s : State) : (holdBlock k s).raised = s.raised := rfl
@[simp] theorem holdBlock_script (k : Nat) (s : State) : (holdBlock k s).script = s.script := rfl
@[simp] theorem holdBlock_tick (k : Nat) (s : State) : (holdBlock k s).tick = s.tick := rfl

/-! ### pushGroup -/

@[simp] theorem pushGroup_params (cs : List DataCmd) (s : State) : (pushGroup cs s).params = s.params := rfl
@[simp] theorem pushGroup_queue (cs : List DataCmd) (s : State) : (pushGroup cs s).queue = s.queue ++ group cs := rfl
@[simp] theorem pushGroup_cursor (cs : List DataCmd) (s : State) : (pushGroup cs s).cursor = s.cursor := rfl
@[simp] theorem pushGroup_slots (cs : List DataCmd) (s : State) : (pushGroup cs s).slots = s.slots.set (nextSlot s) .begin := rfl
@[simp] theorem pushGroup_head (cs : List DataCmd) (s : State) : (pushGroup cs s).head = s.head := rfl
@[simp] theorem pushGroup_armed (cs : List DataCmd) (s : State) : (pushGroup cs s).armed = s.armed := rfl
@[simp] theorem pushGroup_waitStop (cs : List DataCmd) (s : State) : (pushGroup cs s).waitStop = s.waitStop := rfl
@[simp] theorem pushGroup_faults (cs : List DataCmd) (s : State) : (pushGroup cs s).faults = s.faults := rfl
@[simp] theorem pushGroup_cr1 (cs : List DataCmd) (s : State) : (pushGroup cs s).cr1 = s.cr1 := rfl
@[simp] theorem pushGroup_cr2 (cs : List DataCmd) (s : State) : (pushGroup cs s).cr2 = s.cr2 := rfl
@[simp] theorem pushGroup_sr1 (cs : List DataCmd) (s : State) : (pushGroup cs s).sr1 = s.sr1 := rfl
@[simp] theorem pushGroup_sr2 (cs : List DataCmd) (s : State) : (pushGroup cs s).sr2 = s.sr2 := rfl
@[simp] theorem pushGroup_drTx (cs : List DataCmd) (s : State) : (pushGroup cs s).drTx = s.drTx := rfl
@[simp] theorem pushGroup_drRx (cs : List DataCmd) (s : State) : (pushGroup cs s).drRx = s.drRx := rfl
@[simp] theorem pushGroup_mem (cs : List DataCmd) (s : State) : (pushGroup cs s).mem = s.mem := rfl
@[simp] theorem pushGroup_held (cs : List DataCmd) (s : State) : (pushGroup cs s).held = s.held := rfl
@[simp] theorem pushGroup_mode (cs : List DataCmd) (s : State) : (pushGroup cs s).mode = s.mode := rfl
@[simp] theorem pushGroup_wire (cs : List DataCmd) (s : State) : (pushGroup cs s).wire = s.wire := rfl
@[simp] theorem pushGroup_results (cs : List DataCmd) (s : State) : (pushGroup cs s).results = s.results := rfl
@[simp] theorem pushGroup_loans (cs : List DataCmd) (s : State) : (pushGroup cs s).loans = s.loans ++ [⟨nextSlot s, cs⟩] := rfl
@[simp] theorem pushGroup_blocked (cs : List DataCmd) (s : State) : (pushGroup cs s).blocked = s.blocked := rfl
@[simp] theorem pushGroup_critical (cs : List DataCmd) (s : State) : (pushGroup cs s).critical = s.critical := rfl
@[simp] theorem pushGroup_raised (cs : List DataCmd) (s : State) : (pushGroup cs s).raised = s.raised := rfl
@[simp] theorem pushGroup_script (cs : List DataCmd) (s : State) : (pushGroup cs s).script = s.script := rfl
@[simp] theorem pushGroup_tick (cs : List DataCmd) (s : State) : (pushGroup cs s).tick = s.tick := rfl

end Sys2Proof.Machine
end

