-- ==== Sys2Proof/Laws/Bus.lean ====
section
/-!
SUPPORT. What no step of the bus agent writes (rules R200, R210): one lemma per field.
-/

namespace Sys2Proof.Machine

/-- No bus step writes `params`. -/
@[simp] theorem busStep_params (b : BusMove) (s : State) : (busStep b s).params = s.params := by
  unfold busStep busPermissive busStart busAddress busTransmit busReceive busStop busInject
  repeat' split
  all_goals rfl

/-- No bus step writes `queue`. -/
@[simp] theorem busStep_queue (b : BusMove) (s : State) : (busStep b s).queue = s.queue := by
  unfold busStep busPermissive busStart busAddress busTransmit busReceive busStop busInject
  repeat' split
  all_goals rfl

/-- No bus step writes `cursor`. -/
@[simp] theorem busStep_cursor (b : BusMove) (s : State) : (busStep b s).cursor = s.cursor := by
  unfold busStep busPermissive busStart busAddress busTransmit busReceive busStop busInject
  repeat' split
  all_goals rfl

/-- No bus step writes `slots`. -/
@[simp] theorem busStep_slots (b : BusMove) (s : State) : (busStep b s).slots = s.slots := by
  unfold busStep busPermissive busStart busAddress busTransmit busReceive busStop busInject
  repeat' split
  all_goals rfl

/-- No bus step writes `head`. -/
@[simp] theorem busStep_head (b : BusMove) (s : State) : (busStep b s).head = s.head := by
  unfold busStep busPermissive busStart busAddress busTransmit busReceive busStop busInject
  repeat' split
  all_goals rfl

/-- No bus step writes `armed`. -/
@[simp] theorem busStep_armed (b : BusMove) (s : State) : (busStep b s).armed = s.armed := by
  unfold busStep busPermissive busStart busAddress busTransmit busReceive busStop busInject
  repeat' split
  all_goals rfl

/-- No bus step writes `waitStop`. -/
@[simp] theorem busStep_waitStop (b : BusMove) (s : State) : (busStep b s).waitStop = s.waitStop := by
  unfold busStep busPermissive busStart busAddress busTransmit busReceive busStop busInject
  repeat' split
  all_goals rfl

/-- No bus step writes `faults`. -/
@[simp] theorem busStep_faults (b : BusMove) (s : State) : (busStep b s).faults = s.faults := by
  unfold busStep busPermissive busStart busAddress busTransmit busReceive busStop busInject
  repeat' split
  all_goals rfl

/-- No bus step writes `cr2`. -/
@[simp] theorem busStep_cr2 (b : BusMove) (s : State) : (busStep b s).cr2 = s.cr2 := by
  unfold busStep busPermissive busStart busAddress busTransmit busReceive busStop busInject
  repeat' split
  all_goals rfl

/-- No bus step writes `sr2`. -/
@[simp] theorem busStep_sr2 (b : BusMove) (s : State) : (busStep b s).sr2 = s.sr2 := by
  unfold busStep busPermissive busStart busAddress busTransmit busReceive busStop busInject
  repeat' split
  all_goals rfl

/-- No bus step writes `drTx`. -/
@[simp] theorem busStep_drTx (b : BusMove) (s : State) : (busStep b s).drTx = s.drTx := by
  unfold busStep busPermissive busStart busAddress busTransmit busReceive busStop busInject
  repeat' split
  all_goals rfl

/-- No bus step writes `mem`. -/
@[simp] theorem busStep_mem (b : BusMove) (s : State) : (busStep b s).mem = s.mem := by
  unfold busStep busPermissive busStart busAddress busTransmit busReceive busStop busInject
  repeat' split
  all_goals rfl

/-- No bus step writes `results`. -/
@[simp] theorem busStep_results (b : BusMove) (s : State) : (busStep b s).results = s.results := by
  unfold busStep busPermissive busStart busAddress busTransmit busReceive busStop busInject
  repeat' split
  all_goals rfl

/-- No bus step writes `loans`. -/
@[simp] theorem busStep_loans (b : BusMove) (s : State) : (busStep b s).loans = s.loans := by
  unfold busStep busPermissive busStart busAddress busTransmit busReceive busStop busInject
  repeat' split
  all_goals rfl

/-- No bus step writes `blocked`. -/
@[simp] theorem busStep_blocked (b : BusMove) (s : State) : (busStep b s).blocked = s.blocked := by
  unfold busStep busPermissive busStart busAddress busTransmit busReceive busStop busInject
  repeat' split
  all_goals rfl

/-- No bus step writes `critical`. -/
@[simp] theorem busStep_critical (b : BusMove) (s : State) : (busStep b s).critical = s.critical := by
  unfold busStep busPermissive busStart busAddress busTransmit busReceive busStop busInject
  repeat' split
  all_goals rfl

/-- No bus step writes `raised`. -/
@[simp] theorem busStep_raised (b : BusMove) (s : State) : (busStep b s).raised = s.raised := by
  unfold busStep busPermissive busStart busAddress busTransmit busReceive busStop busInject
  repeat' split
  all_goals rfl

/-- No bus step writes `script`. -/
@[simp] theorem busStep_script (b : BusMove) (s : State) : (busStep b s).script = s.script := by
  unfold busStep busPermissive busStart busAddress busTransmit busReceive busStop busInject
  repeat' split
  all_goals rfl

/-- No bus step writes `tick`. -/
@[simp] theorem busStep_tick (b : BusMove) (s : State) : (busStep b s).tick = s.tick := by
  unfold busStep busPermissive busStart busAddress busTransmit busReceive busStop busInject
  repeat' split
  all_goals rfl

end Sys2Proof.Machine
end

