-- ==== Sys2Proof/Laws/Memory.lean ====
section
/-!
SUPPORT. Caller memory: every write keeps the canonical form (rules R50, R51).
-/

namespace Sys2Proof.Machine

/-- The canonical form, read from the front cell: it is an address, it holds no unlisted value, and the rest is
canonical and lies above it. -/
theorem memory_wf_cons (k : Nat) (b : Byte) (r : Memory) :
    Memory.wf ((k, b) :: r) = true ↔
      isAddr k = true ∧ b ≠ unwritten ∧ Memory.wf r = true ∧ ∀ k' b' r', r = (k', b') :: r' → k < k' := by
  cases r with
  | nil => simp [Memory.wf]
  | cons c r =>
    obtain ⟨k', b'⟩ := c
    simp only [Memory.wf, Bool.and_eq_true, decide_eq_true_eq, List.cons.injEq, Prod.mk.injEq]
    constructor
    · rintro ⟨⟨⟨hk, hb⟩, hlt⟩, hr⟩
      exact ⟨hk, hb, hr, fun _ _ _ ⟨⟨rfl, _⟩, _⟩ => hlt⟩
    · rintro ⟨hk, hb, hr, hlt⟩
      exact ⟨⟨⟨hk, hb⟩, hlt k' b' r ⟨⟨rfl, rfl⟩, rfl⟩⟩, hr⟩

/-- A cell put before a canonical rest that lies above it. -/
theorem memCons_wf {a : Nat} {v : Byte} {r : Memory} (ha : isAddr a = true) (hr : Memory.wf r = true)
    (hlt : ∀ k b r', r = (k, b) :: r' → a < k) : Memory.wf (memCons a v r) = true := by
  unfold memCons
  split
  · exact hr
  · rename_i hv
    exact (memory_wf_cons a v r).2 ⟨ha, hv, hr, hlt⟩

/-- The front cell of a canonical memory after a write is no lower than the written address or the old front. -/
theorem memWrite_front {r : Memory} {a k' : Nat} {v b' : Byte} {r' : Memory} {k : Nat} (hr : Memory.wf r = true)
    (hk : ∀ x b q, r = (x, b) :: q → k < x) (hka : k < a) (h : memWrite r a v = (k', b') :: r') : k < k' := by
  cases r with
  | nil =>
    simp only [memWrite, memCons] at h
    split at h
    · cases h
    · cases h; exact hka
  | cons c q =>
    obtain ⟨x, b⟩ := c
    have hx : k < x := hk x b q rfl
    simp only [memWrite, memCons] at h
    split at h
    · split at h
      · cases h; exact hx
      · cases h; exact hka
    · split at h
      · split at h
        · subst h
          have := ((memory_wf_cons x b _).1 hr).2.2.2 k' b' r' rfl
          omega
        · cases h; exact hka
      · cases h; exact hx

/-- A write of a byte at an address keeps the canonical form. -/
theorem memWrite_wf {m : Memory} {a : Nat} {v : Byte} (ha : isAddr a = true) (hm : Memory.wf m = true) :
    Memory.wf (memWrite m a v) = true := by
  induction m with
  | nil => exact memCons_wf ha rfl (by intro k b r h; cases h)
  | cons c r ih =>
    obtain ⟨k, b⟩ := c
    obtain ⟨hk, hb, hr, hlt⟩ := (memory_wf_cons k b r).1 hm
    simp only [memWrite]
    split
    · rename_i hak
      exact memCons_wf ha hm (by rintro x y q h; cases h; exact hak)
    · split
      · rename_i _ hak
        subst hak
        exact memCons_wf ha hr hlt
      · refine (memory_wf_cons k b _).2 ⟨hk, hb, ih hr, ?_⟩
        intro k' b' r' h
        exact memWrite_front hr hlt (by omega) h

/-- The memory of the machine after reset is canonical. -/
theorem resetWith_mem_wf (p : Params) : Memory.wf (State.resetWith p).mem = true := rfl

end Sys2Proof.Machine
end

