-- ==== Sys2Proof/Laws/Ops.lean ====
section
/-!
SUPPORT. One lemma per shared operation: what it can answer, and what it leaves (rules R100 to R107, R134 to R141, R145,
R170, R179, R180).
-/

namespace Sys2Proof.Machine

/-! ### Slots -/

/-- A slot after `S[i] <- p`. -/
theorem phaseAt_setPhase (i j : Nat) (p : Phase) (s : State) :
    phaseAt (setPhase i p s) j = if i = j ∧ i < s.slots.length then p else phaseAt s j := by
  simp only [phaseAt, setPhase, List.getD_eq_getElem?_getD, List.getElem?_set]
  by_cases h : i = j
  · subst h
    by_cases hl : i < s.slots.length
    · simp [hl]
    · simp [hl]
  · simp [h]

/-- Every slot is Begin after reset. -/
theorem phaseAt_resetWith (p : Params) (i : Nat) : phaseAt (State.resetWith p) i = .begin := by
  simp only [phaseAt, State.resetWith, List.getD_eq_getElem?_getD, List.getElem?_replicate]
  split <;> rfl

/-- A phase that records no Error becomes Finished. -/
theorem finalPhase_of_not_failed {p : Phase} (h : phaseFailed p = false) : finalPhase p = .finished := by
  simp [finalPhase, h]

/-- What Finalize leaves is terminal. -/
theorem phaseTerminal_finalPhase (p : Phase) : phaseTerminal (finalPhase p) = true := by
  cases p <;> rfl

/-- Writing the head slot and finalizing it is finalizing the written phase. -/
theorem set_finalPhase (l : List Phase) (h : Nat) (p : Phase) :
    (l.set h p).set h (finalPhase ((l.set h p).getD h .begin)) = l.set h (finalPhase p) := by
  by_cases hl : h < l.length
  · simp [List.getD_eq_getElem?_getD, hl]
  · simp [List.set_eq_of_length_le (Nat.le_of_not_lt hl)]

/-! ### The queue -/

@[simp] theorem noops_nil : noops [] = 0 := rfl

@[simp] theorem noops_cons_data (c : DataCmd) (q : List Command) : noops (.data c :: q) = noops q :=
  List.countP_cons_of_neg (by simp [isNoop])

@[simp] theorem noops_cons_noop (q : List Command) : noops (.noop :: q) = noops q + 1 :=
  List.countP_cons_of_pos rfl

@[simp] theorem noops_append (q r : List Command) : noops (q ++ r) = noops q + noops r := by
  simp [noops]

/-- A group has one NoOp. -/
@[simp] theorem noops_group (cs : List DataCmd) : noops (group cs) = 1 := by
  induction cs with
  | nil => rfl
  | cons c cs ih =>
    have : group (c :: cs) = .data c :: group cs := rfl
    rw [this, noops_cons_data, ih]

/-- A group has one entry more than it has data Commands. -/
@[simp] theorem length_group (cs : List DataCmd) : (group cs).length = cs.length + 1 := by simp [group]

/-- The data Commands before a NoOp are skipped. -/
theorem dropWhile_data (ds : List DataCmd) (r : List Command) :
    (ds.map Command.data ++ .noop :: r).dropWhile (fun k => !isNoop k) = .noop :: r := by
  induction ds with
  | nil => simp [isNoop]
  | cons d ds ih => simp [isNoop]

/-! ### Finalize -/

@[simp] theorem finalizeTo_params (r : List Command) (s : State) : (finalizeTo r s).params = s.params := by
  unfold finalizeTo chainOrDisarm; split <;> rfl
@[simp] theorem finalizeTo_queue (r : List Command) (s : State) : (finalizeTo r s).queue = r := by
  unfold finalizeTo chainOrDisarm; split <;> rfl
@[simp] theorem finalizeTo_cursor (r : List Command) (s : State) : (finalizeTo r s).cursor = s.cursor := by
  unfold finalizeTo chainOrDisarm; split <;> rfl
@[simp] theorem finalizeTo_slots (r : List Command) (s : State) :
    (finalizeTo r s).slots = s.slots.set s.head (finalPhase (headPhase s)) := by
  unfold finalizeTo chainOrDisarm; split <;> rfl
@[simp] theorem finalizeTo_head (r : List Command) (s : State) :
    (finalizeTo r s).head = (s.head + 1) % s.params.n := by
  unfold finalizeTo chainOrDisarm; split <;> rfl
@[simp] theorem finalizeTo_armed (r : List Command) (s : State) :
    (finalizeTo r s).armed = if r.isEmpty then false else s.armed := by
  unfold finalizeTo chainOrDisarm; cases r <;> rfl
@[simp] theorem finalizeTo_waitStop (r : List Command) (s : State) : (finalizeTo r s).waitStop = s.waitStop := by
  unfold finalizeTo chainOrDisarm; split <;> rfl
@[simp] theorem finalizeTo_faults (r : List Command) (s : State) : (finalizeTo r s).faults = s.faults := by
  unfold finalizeTo chainOrDisarm; split <;> rfl
@[simp] theorem finalizeTo_cr1 (r : List Command) (s : State) :
    (finalizeTo r s).cr1 = if r.isEmpty then s.cr1 else { s.cr1 with ack := true, start := true } := by
  unfold finalizeTo chainOrDisarm; cases r <;> rfl
@[simp] theorem finalizeTo_cr2 (r : List Command) (s : State) : (finalizeTo r s).cr2 = s.cr2 := by
  unfold finalizeTo chainOrDisarm; split <;> rfl
@[simp] theorem finalizeTo_sr1 (r : List Command) (s : State) : (finalizeTo r s).sr1 = s.sr1 := by
  unfold finalizeTo chainOrDisarm; split <;> rfl
@[simp] theorem finalizeTo_sr2 (r : List Command) (s : State) : (finalizeTo r s).sr2 = s.sr2 := by
  unfold finalizeTo chainOrDisarm; split <;> rfl
@[simp] theorem finalizeTo_drTx (r : List Command) (s : State) : (finalizeTo r s).drTx = s.drTx := by
  unfold finalizeTo chainOrDisarm; split <;> rfl
@[simp] theorem finalizeTo_drRx (r : List Command) (s : State) : (finalizeTo r s).drRx = s.drRx := by
  unfold finalizeTo chainOrDisarm; split <;> rfl
@[simp] theorem finalizeTo_mem (r : List Command) (s : State) : (finalizeTo r s).mem = s.mem := by
  unfold finalizeTo chainOrDisarm; split <;> rfl
@[simp] theorem finalizeTo_held (r : List Command) (s : State) : (finalizeTo r s).held = s.held := by
  unfold finalizeTo chainOrDisarm; split <;> rfl
@[simp] theorem finalizeTo_mode (r : List Command) (s : State) : (finalizeTo r s).mode = s.mode := by
  unfold finalizeTo chainOrDisarm; split <;> rfl
@[simp] theorem finalizeTo_wire (r : List Command) (s : State) : (finalizeTo r s).wire = s.wire := by
  unfold finalizeTo chainOrDisarm; split <;> rfl
@[simp] theorem finalizeTo_results (r : List Command) (s : State) : (finalizeTo r s).results = s.results := by
  unfold finalizeTo chainOrDisarm; split <;> rfl
@[simp] theorem finalizeTo_loans (r : List Command) (s : State) : (finalizeTo r s).loans = s.loans := by
  unfold finalizeTo chainOrDisarm; split <;> rfl
@[simp] theorem finalizeTo_blocked (r : List Command) (s : State) : (finalizeTo r s).blocked = s.blocked := by
  unfold finalizeTo chainOrDisarm; split <;> rfl
@[simp] theorem finalizeTo_critical (r : List Command) (s : State) : (finalizeTo r s).critical = s.critical := by
  unfold finalizeTo chainOrDisarm; split <;> rfl
@[simp] theorem finalizeTo_raised (r : List Command) (s : State) : (finalizeTo r s).raised = s.raised := by
  unfold finalizeTo chainOrDisarm; split <;> rfl
@[simp] theorem finalizeTo_script (r : List Command) (s : State) : (finalizeTo r s).script = s.script := by
  unfold finalizeTo chainOrDisarm; split <;> rfl
@[simp] theorem finalizeTo_tick (r : List Command) (s : State) : (finalizeTo r s).tick = s.tick := by
  unfold finalizeTo chainOrDisarm; split <;> rfl

/-- Finalize answers only with a NoOp at the head. -/
theorem finalize_next {s t : State} (h : finalize s = .next t) :
    ∃ r, s.queue = .noop :: r ∧ t = finalizeTo r s := by
  unfold finalize at h
  split at h
  · rename_i r hq
    cases h
    exact ⟨r, hq, rfl⟩
  · cases h
  · cases h

/-- With a NoOp at the head it does. -/
theorem finalize_noop {s : State} {r : List Command} (h : s.queue = .noop :: r) :
    finalize s = .next (finalizeTo r s) := by simp only [finalize, h]

/-! ### EndCommand -/

/-- What EndCommand can answer: the transaction is over, a Read is followed by a data Command, or the next Command of
the transaction starts. -/
theorem endCommand_next {c : DataCmd} {b : Bool} {s t : State} (h : endCommand c b s = .next t) :
    (∃ r, s.queue.tail = .noop :: r ∧ t = finalizeTo r (if b then popCommand s else requestStop (popCommand s))) ∨
    (∃ d r, s.queue.tail = .data d :: r ∧ c.dir = .read ∧ t = setFault .readNotLast (popCommand s)) ∨
    (∃ d r, s.queue.tail = .data d :: r ∧ c.dir = .write ∧
      t = issueStart (setHeadPhase .begin (popCommand s))) := by
  unfold endCommand at h
  split at h
  · cases h
  · rename_i r hq
    obtain ⟨r', hr', rfl⟩ := finalize_next h
    have : r' = r := by
      cases b <;> simp [hq] at hr' <;> exact hr'.symm
    subst this
    exact .inl ⟨r', hq, rfl⟩
  · rename_i d r hq
    split at h
    · rename_i hd
      cases h
      exact .inr (.inl ⟨d, r, hq, hd, rfl⟩)
    · rename_i hd
      cases h
      exact .inr (.inr ⟨d, r, hq, hd, rfl⟩)

/-- EndCommand with the NoOp next. -/
theorem endCommand_noop {c : DataCmd} {b : Bool} {s : State} {r : List Command} (h : s.queue.tail = .noop :: r) :
    endCommand c b s = .next (finalizeTo r (if b then popCommand s else requestStop (popCommand s))) := by
  have : (if b then popCommand s else requestStop (popCommand s)).queue = .noop :: r := by
    cases b <;> simp [h]
  simp only [endCommand, h, finalize_noop this]

/-! ### Taking a wire fault -/

/-- FailHead answers only if a NoOp is queued, and finalizes there with the Error recorded. -/
theorem failHead_next {e : BusError} {s t : State} (h : failHead e s = .next t) :
    ∃ r, s.queue.dropWhile (fun k => !isNoop k) = .noop :: r ∧
      t = finalizeTo r { setHeadPhase (.fail e) s with queue := .noop :: r, cursor := 0 } := by
  unfold failHead skip at h
  obtain ⟨r, hr, rfl⟩ := finalize_next h
  have hr' : s.queue.dropWhile (fun k => !isNoop k) = .noop :: r := hr
  refine ⟨r, hr', ?_⟩
  simp only [setHeadPhase_queue, hr']

/-- On a queue of data Commands and their NoOp it answers. -/
theorem failHead_group {e : BusError} {s : State} {ds : List DataCmd} {r : List Command}
    (h : s.queue = ds.map Command.data ++ .noop :: r) :
    failHead e s = .next (finalizeTo r { setHeadPhase (.fail e) s with queue := .noop :: r, cursor := 0 }) := by
  unfold failHead skip
  simp only [setHeadPhase_queue, h, dropWhile_data]
  rw [finalize_noop rfl]

/-! ### The head Command in a handler -/

/-- What an EV case can answer: EV_IDLE, the NoOp fault, or its run on the head Command. -/
theorem onHead_next {s t : State} {run : DataCmd → Host.Outcome State Fault Refusal}
    (h : onHead s run = .next t) :
    (s.queue = [] ∧ t = clearTopEvent s) ∨ (∃ r, s.queue = .noop :: r ∧ t = setFault .noopAtHead s) ∨
      (∃ c r, s.queue = .data c :: r ∧ run c = .next t) := by
  unfold onHead at h
  split at h
  · rename_i hq
    cases h
    exact .inl ⟨hq, rfl⟩
  · rename_i r hq
    cases h
    exact .inr (.inl ⟨r, hq, rfl⟩)
  · rename_i c r hq
    exact .inr (.inr ⟨c, r, hq, h⟩)

/-- With a data Command at the head the case runs on it. -/
theorem onHead_data {s : State} {run : DataCmd → Host.Outcome State Fault Refusal} {c : DataCmd} {r : List Command}
    (h : s.queue = .data c :: r) : onHead s run = run c := by simp only [onHead, h]

/-- What transmitting can answer: the next byte is sent, or the Command ends. -/
theorem transmitNext_next {c : DataCmd} {s t : State} (h : transmitNext c s = .next t) :
    (s.cursor < c.buf.len.toNat ∧ isAddr (bufAddr c.buf s.cursor) = true ∧
      t = { writeDr (memRead s.mem (bufAddr c.buf s.cursor)) s with cursor := s.cursor + 1 }) ∨
    (c.buf.len.toNat ≤ s.cursor ∧ endCommand c false s = .next t) := by
  unfold transmitNext at h
  split at h
  · rename_i hl
    split at h
    · rename_i ha
      cases h
      exact .inl ⟨hl, ha, rfl⟩
    · cases h
  · rename_i hl
    exact .inr ⟨Nat.le_of_not_lt hl, h⟩

/-- What a capture can answer: the overflow fault, or the byte stored. -/
theorem capture_next {c : DataCmd} {f : State → State} {s t : State} (h : capture c f s = .next t) :
    (c.buf.len.toNat ≤ s.cursor ∧ t = setFault .rxOverflow s) ∨
    (s.cursor < c.buf.len.toNat ∧ isAddr (bufAddr c.buf s.cursor) = true ∧ t = f (storeReceived c s)) := by
  unfold capture at h
  split at h
  · rename_i hl
    cases h
    exact .inl ⟨hl, rfl⟩
  · rename_i hl
    split at h
    · rename_i ha
      cases h
      exact .inr ⟨Nat.lt_of_not_le hl, ha, rfl⟩
    · cases h

/-- What reporting an error can answer: ER_IDLE, the NoOp fault, or the head transaction failed. -/
theorem reportError_next {k : ErCase} {e : BusError} {s t : State} (h : reportError k e s = .next t) :
    (s.queue = [] ∧ t = clearErr k s) ∨ (∃ r, s.queue = .noop :: r ∧ t = setFault .noopAtHead s) ∨
      (∃ c r, s.queue = .data c :: r ∧ failHead e (clearErr k s) = .next t) := by
  unfold reportError at h
  split at h
  · rename_i hq
    cases h
    exact .inl ⟨hq, rfl⟩
  · rename_i r hq
    cases h
    exact .inr (.inl ⟨r, hq, rfl⟩)
  · rename_i c r hq
    exact .inr (.inr ⟨c, r, hq, h⟩)

/-! ### Host operations -/

/-- An enqueue is turned away whole, or accepted whole (rules R100, R101). -/
theorem enqueue_cases (cs : List DataCmd) (s : State) :
    (s.params.n < s.queue.length + cs.length + 1 ∧ enqueue cs s = giveResult (.enq .busy) s) ∨
    (s.queue.length + cs.length + 1 ≤ s.params.n ∧ enqueue cs s = acceptEnqueue cs s) := by
  unfold enqueue
  split
  · exact .inl ⟨‹_›, rfl⟩
  · exact .inr ⟨Nat.le_of_not_lt ‹_›, rfl⟩

/-- Returning a Poll gives one result and may end loans; it writes nothing else. -/
theorem returnPoll_eq (slot : Nat) (s : State) :
    ∃ ls, (∀ l, l ∈ ls → l ∈ s.loans) ∧
      returnPoll slot s = { s with results := s.results ++ [.poll (pollOf (phaseAt s slot))], loans := ls } := by
  unfold returnPoll
  split
  · exact ⟨_, fun l hl => (List.mem_filter.1 hl).1, rfl⟩
  · exact ⟨s.loans, fun l hl => hl, rfl⟩

end Sys2Proof.Machine
end

