-- ==== Sys2Proof/Laws/PerInstr.lean ====
section
/-!
SUPPORT. One lemma per instruction: its encoding has the bits its row of spec/opcode_table.json fixes.
-/

namespace Sys2Proof.Laws.EncodesRow

/-- The word a table row describes: the request word, word 0 of a queue entry, the status register. -/
def codeWord : Code → Word
  | .req _ w _ _ => w
  | .cmd c => c.w0
  | .evt sr1 _ _ => sr1
  | .err sr1 => sr1

/-- `match` and `mask` of each row of the table. -/
def row : Instr → Word × Word
  | .writeAsync _ _ => (0x00000001, 0xFFFFF00F)
  | .readAsync _ _ => (0x00000002, 0xFFFFF00F)
  | .writeReadAsync _ _ _ => (0x00000003, 0xFFFFF00F)
  | .futureReady _ => (0x00000004, 0xFFFFF00F)
  | .futureBlock _ => (0x00000005, 0xFFFFF00F)
  | .evIrq => (0x00000008, 0xFFFFFFFF)
  | .erIrq => (0x00000009, 0xFFFFFFFF)
  | .cmdNoop => (0x00000000, 0x00000003)
  | .cmdWrite _ _ => (0x00000001, 0x00000003)
  | .cmdRead _ _ => (0x00000002, 0x00000003)
  | .evSb => (0x00000001, 0x00000001)
  | .evAddrWrite => (0x00000002, 0x00000003)
  | .evAddrRead => (0x00000002, 0x00000003)
  | .evBtfWrite => (0x00000004, 0x00000007)
  | .evBtfRead => (0x00000004, 0x00000007)
  | .evBtfReadLast => (0x00000004, 0x00000007)
  | .evNone => (0x00000000, 0x00000007)
  | .erTimeout => (0x00004000, 0x00004000)
  | .erPecerr => (0x00001000, 0x00005000)
  | .erOvr => (0x00000800, 0x00005800)
  | .erAf => (0x00000400, 0x00005C00)
  | .erArlo => (0x00000200, 0x00005E00)
  | .erBerr => (0x00000100, 0x00005F00)
  | .erNone => (0x00000000, 0x00005F00)

/-- With the default layout the encoding of `i` has its row's bits. -/
def Statement (i : Instr) : Prop :=
  ∀ p : Params, p.layout = RegLayout.default → codeWord (encode p i) &&& (row i).2 = (row i).1

/-- A request word keeps its operation under the mask of the rows that leave `ARG8` open (rule R89). -/
theorem reqWord_masked (op : Fin 16) (arg : Byte) :
    reqWord op.val arg &&& 0xFFFFF00F = BitVec.ofNat 32 op.val := by
  revert op arg
  decide +kernel

/-- Word 0 of a data entry keeps its tag (rules R76, R77). -/
theorem cmdWord_masked (arg : Byte) (tag : Fin 4) :
    (arg.setWidth 32 <<< 2 ||| BitVec.ofNat 32 tag.val) &&& 0x00000003 = BitVec.ofNat 32 tag.val := by
  revert arg tag
  decide +kernel

theorem writeAsync (addr : Byte) (wbuf : Buf) : Statement (.writeAsync addr wbuf) := fun _ _ =>
  reqWord_masked 1 addr
theorem readAsync (addr : Byte) (rbuf : Buf) : Statement (.readAsync addr rbuf) := fun _ _ =>
  reqWord_masked 2 addr
theorem writeReadAsync (addr : Byte) (wbuf rbuf : Buf) : Statement (.writeReadAsync addr wbuf rbuf) := fun _ _ =>
  reqWord_masked 3 addr
theorem futureReady (slot : Byte) : Statement (.futureReady slot) := fun _ _ =>
  reqWord_masked 4 slot
theorem futureBlock (slot : Byte) : Statement (.futureBlock slot) := fun _ _ =>
  reqWord_masked 5 slot
theorem evIrq : Statement .evIrq := fun _ _ => by
  simp only [encode]
  decide
theorem erIrq : Statement .erIrq := fun _ _ => by
  simp only [encode]
  decide
theorem cmdNoop : Statement .cmdNoop := fun _ _ => by
  simp only [encode]
  decide
theorem cmdWrite (addr : Byte) (buf : Buf) : Statement (.cmdWrite addr buf) := fun _ _ =>
  cmdWord_masked addr 1
theorem cmdRead (addr : Byte) (buf : Buf) : Statement (.cmdRead addr buf) := fun _ _ =>
  cmdWord_masked addr 2
theorem evSb : Statement .evSb := fun p hp => by
  simp only [encode, evtCode, hp]
  decide
theorem evAddrWrite : Statement .evAddrWrite := fun p hp => by
  simp only [encode, evtCode, hp]
  decide
theorem evAddrRead : Statement .evAddrRead := fun p hp => by
  simp only [encode, evtCode, hp]
  decide
theorem evBtfWrite : Statement .evBtfWrite := fun p hp => by
  simp only [encode, evtCode, hp]
  decide
theorem evBtfRead : Statement .evBtfRead := fun p hp => by
  simp only [encode, evtCode, hp]
  decide
theorem evBtfReadLast : Statement .evBtfReadLast := fun p hp => by
  simp only [encode, evtCode, hp]
  decide
theorem evNone : Statement .evNone := fun p hp => by
  simp only [encode, evtCode, hp]
  decide
theorem erTimeout : Statement .erTimeout := fun p hp => by
  simp only [encode, hp]
  decide
theorem erPecerr : Statement .erPecerr := fun p hp => by
  simp only [encode, hp]
  decide
theorem erOvr : Statement .erOvr := fun p hp => by
  simp only [encode, hp]
  decide
theorem erAf : Statement .erAf := fun p hp => by
  simp only [encode, hp]
  decide
theorem erArlo : Statement .erArlo := fun p hp => by
  simp only [encode, hp]
  decide
theorem erBerr : Statement .erBerr := fun p hp => by
  simp only [encode, hp]
  decide
theorem erNone : Statement .erNone := fun p hp => by
  simp only [encode, hp]
  decide

end Sys2Proof.Laws.EncodesRow
end

