-- ==== Sys2Proof/Laws/Step.lean ====
section
/-!
SUPPORT. Everything one step can do (rules R6, R59), said once: invariants of the machine are proved case by case over
`Did`.
-/

namespace Sys2Proof.Machine

/-- The legal enqueue lists (rule R112). -/
def LegalCmds (cs : List DataCmd) : Prop :=
  (∃ c, cs = [c]) ∨ ∃ c d, cs = [c, d] ∧ c.dir = .write ∧ d.dir = .read

/-- The offers that can enqueue: a task's request word and a list at the raw enqueue port. -/
def Enqueuer (o : Offer) : Prop :=
  (∃ w wb rb, o = .agent (.task w wb rb)) ∨ ∃ es, o = .agent (.rawEnqueue es)

/-- What the step of the offer `o` did to `s` when it gave a next state. -/
inductive Did (o : Offer) (s : State) : State → Prop where
  /-- The agent had no step, or its step wrote nothing. -/
  | nothing : Did o s s
  | enqueued (cs : List DataCmd) (legal : LegalCmds cs) (own : Enqueuer o) (free : taskMayRun s = true) :
      Did o s (enqueue cs s)
  | polled (slot : Nat) (bound : slot < s.params.n) (free : taskMayRun s = true) : Did o s (returnPoll slot s)
  | held (slot : Nat) (bound : slot < s.params.n) (free : taskMayRun s = true)
      (open_ : phaseTerminal (phaseAt s slot) = false) : Did o s (holdBlock slot s)
  | resumed (k : Nat) (h : Hold) (found : s.blocked[k]? = some h) (may : mayResume h s = true) :
      Did o s { returnPoll h.slot s with blocked := s.blocked.eraseIdx k }
  | raced (free : taskMayRun s = true) : Did o s (setFault .bufferRace s)
  | stored (a : Word) (b : Byte) (own : o = .agent (.store a b)) (free : taskMayRun s = true)
      (noRace : storeRaces a.toNat s = false) : Did o s { s with mem := memWrite s.mem a.toNat b }
  | critical (on : Bool) (free : taskMayRun s = true) : Did o s { s with critical := on }
  | raised (on : Bool) (free : taskMayRun s = true) (unmasked : s.critical = false) : Did o s { s with raised := on }
  | event (t : State) (idle : s.waitStop = false) (level : s.raised = false) (ran : execEvIrq s = .next t) : Did o s t
  | error (t : State) (idle : s.waitStop = false) (level : s.raised = false) (ran : execErIrq s = .next t) : Did o s t
  | stopped (t : State) (waiting : s.waitStop = true) (done : s.cr1.stop = false)
      (ran : endStopWait s = .next t) : Did o s t
  | bus (b : BusMove) (own : o = .agent (.bus b)) : Did o s (busStep b s)

/-- A task's word decodes to one of the five host operations, with a slot in range (rules R72, R73). -/
theorem decodeReq_task {n : Nat} {w : Word} {wb rb : Buf} {i : Instr} (h : decodeReq n .task w wb rb = .ok i) :
    (∃ a, i = .writeAsync a wb) ∨ (∃ a, i = .readAsync a rb) ∨ (∃ a, i = .writeReadAsync a wb rb) ∨
      (∃ k, i = .futureReady k ∧ k.toNat < n) ∨ (∃ k, i = .futureBlock k ∧ k.toNat < n) := by
  unfold decodeReq at h
  split at h
  · cases h
  · simp only [decodeTaskOp] at h
    split at h
    · cases h; exact .inl ⟨_, rfl⟩
    · cases h; exact .inr (.inl ⟨_, rfl⟩)
    · cases h; exact .inr (.inr (.inl ⟨_, rfl⟩))
    · split at h
      · cases h; exact .inr (.inr (.inr (.inl ⟨_, rfl, ‹_›⟩)))
      · cases h
    · split at h
      · cases h; exact .inr (.inr (.inr (.inr ⟨_, rfl, ‹_›⟩)))
      · cases h
    · cases h

/-- The interrupt mechanism's word decodes to a handler entry (rule R72). -/
theorem decodeReq_interrupt {n : Nat} {w : Word} {wb rb : Buf} {i : Instr}
    (h : decodeReq n .interrupt w wb rb = .ok i) : i = .evIrq ∨ i = .erIrq := by
  unfold decodeReq at h
  split at h
  · cases h
  · simp only [decodeHandlerOp] at h
    split at h
    · split at h
      · cases h; exact .inl rfl
      · cases h
    · split at h
      · cases h; exact .inr rfl
      · cases h
    · cases h

/-- A task's host operation enqueues a legal list, returns a Poll, or holds (rules R104 to R108). -/
theorem runTask_did {w : Word} {wb rb : Buf} {s t : State} (h : runTask w wb rb s = .next t) :
    Did (.agent (.task w wb rb)) s t := by
  unfold runTask at h
  split at h
  · rename_i free
    split at h
    · rename_i i hd
      rcases decodeReq_task hd with ⟨a, rfl⟩ | ⟨a, rfl⟩ | ⟨a, rfl⟩ | ⟨k, rfl, hk⟩ | ⟨k, rfl, hk⟩
      · cases h; exact .enqueued _ (.inl ⟨_, rfl⟩) (.inl ⟨w, wb, rb, rfl⟩) free
      · cases h; exact .enqueued _ (.inl ⟨_, rfl⟩) (.inl ⟨w, wb, rb, rfl⟩) free
      · cases h; exact .enqueued _ (.inr ⟨_, _, rfl, rfl, rfl⟩) (.inl ⟨w, wb, rb, rfl⟩) free
      · simp only [exec, execFutureReady, hk, if_true] at h
        cases h; exact .polled _ hk free
      · simp only [exec, execFutureBlock, hk, if_true] at h
        split at h
        · cases h; exact .polled _ hk free
        · rename_i ho
          cases h; exact .held _ hk free (by simpa using ho)
    · cases h
  · cases h; exact .nothing

/-- The raw enqueue port enqueues a legal list (rule R112). -/
theorem legalShape_legal {ks : List Command} {cs : List DataCmd} (h : legalShape ks = some cs) : LegalCmds cs := by
  unfold legalShape at h
  split at h
  · cases h; exact .inl ⟨_, rfl⟩
  · split at h
    · cases h; exact .inr ⟨_, _, rfl, ‹_›⟩
    · cases h
  · cases h

/-- What the raw enqueue port does. -/
theorem runRawEnqueue_did {es : List CmdWords} {s t : State} (h : runRawEnqueue es s = .next t) :
    Did (.agent (.rawEnqueue es)) s t := by
  unfold runRawEnqueue at h
  split at h
  · rename_i free
    split at h
    · cases h
    · split at h
      · rename_i hl
        cases h; exact .enqueued _ (legalShape_legal hl) (.inr ⟨es, rfl⟩) free
      · cases h
  · cases h; exact .nothing

/-- What a handler entry does, requested or forced, outside the STOP wait. -/
theorem exec_entry_did {o : Offer} {i : Instr} {s t : State} (hi : i = .evIrq ∨ i = .erIrq) (hw : s.waitStop = false)
    (hr : s.raised = false) (h : exec i s = .next t) : Did o s t := by
  rcases hi with rfl | rfl
  · exact .event t hw hr h
  · exact .error t hw hr h

/-- A handler that may enter finds no handler executing (rule R235). -/
theorem mayEnter_idle {i : Instr} {s : State} (h : mayEnter i s = true) : s.waitStop = false ∧ s.raised = false := by
  unfold mayEnter evMayEnter erMayEnter handlersFree at h
  cases hw : s.waitStop <;> cases hr : s.raised <;> simp [hw, hr] at h ⊢

/-- What code at or above the handlers' priority does when it begins or ends. -/
theorem runRaised_did {o : Offer} {s : State} (on : Bool) : Did o s (runRaised on s) := by
  unfold runRaised
  split
  · rename_i h
    simp only [Bool.and_eq_true, Bool.not_eq_true'] at h
    exact .raised on h.1 h.2
  · exact .nothing

/-- Everything the step of one agent can do. -/
theorem runMove_did {m : Move} {s t : State} (h : runMove m s = .next t) : Did (.agent m) s t := by
  cases m with
  | task w wb rb => exact runTask_did h
  | rawEnqueue es => exact runRawEnqueue_did h
  | resume k =>
    simp only [runMove, runResume, Host.Outcome.next.injEq] at h
    subst h
    split
    · split
      · exact .resumed k _ ‹_› ‹_›
      · exact .nothing
    · exact .nothing
  | load a =>
    simp only [runMove, runLoad, Host.Outcome.next.injEq] at h
    subst h
    split
    · split
      · exact .raced ‹_›
      · exact .nothing
    · exact .nothing
  | store a b =>
    simp only [runMove, runStore, Host.Outcome.next.injEq] at h
    subst h
    split
    · rename_i free
      split
      · exact .raced free
      · rename_i hr
        exact .stored a b rfl free (by simpa using hr)
    · exact .nothing
  | enterCritical =>
    simp only [runMove, runCritical, Host.Outcome.next.injEq] at h
    subst h
    split
    · exact .critical true ‹_›
    · exact .nothing
  | exitCritical =>
    simp only [runMove, runCritical, Host.Outcome.next.injEq] at h
    subst h
    split
    · exact .critical false ‹_›
    · exact .nothing
  | enterRaised =>
    simp only [runMove, Host.Outcome.next.injEq] at h
    subst h
    exact runRaised_did true
  | exitRaised =>
    simp only [runMove, Host.Outcome.next.injEq] at h
    subst h
    exact runRaised_did false
  | interrupt w =>
    simp only [runMove, runInterrupt] at h
    split at h
    · rename_i hd
      split at h
      · rename_i hm
        exact exec_entry_did (decodeReq_interrupt hd) (mayEnter_idle hm).1 (mayEnter_idle hm).2 h
      · cases h; exact .nothing
    · cases h
  | stopWait =>
    simp only [runMove, runStopWait] at h
    split at h
    · rename_i hw
      simp only [Bool.and_eq_true, Bool.not_eq_true'] at hw
      exact .stopped t hw.1 hw.2 h
    · cases h; exact .nothing
  | bus b =>
    cases h; exact .bus b rfl

/-- Everything the step of one offer can do. -/
theorem runOffer_did {o : Offer} {s t : State} (h : runOffer o s = .next t) : Did o s t := by
  cases o with
  | agent m => exact runMove_did h
  | forced w =>
    simp only [runOffer, runForced] at h
    split at h
    · rename_i hd
      split at h
      · cases h; exact .nothing
      · rename_i hw
        simp only [Bool.or_eq_true, not_or, Bool.not_eq_true] at hw
        exact exec_entry_did (decodeReq_interrupt hd) hw.1 hw.2 h
    · cases h

/-- Taking the next offer changes the offers and nothing else. -/
theorem takeOffer_state (s : State) : ∃ sc tk, (takeOffer s).2 = { s with script := sc, tick := tk } := by
  unfold takeOffer
  split
  · exact ⟨_, s.tick, rfl⟩
  · exact ⟨s.script, _, rfl⟩

/-- Everything one step of the machine can do: the next offer is used up, then one agent acts. -/
theorem step_did {s t : State} (h : step s = .next t) :
    ∃ sc tk, Did (takeOffer s).1 { s with script := sc, tick := tk } t := by
  obtain ⟨sc, tk, he⟩ := takeOffer_state s
  unfold step at h
  rw [he] at h
  exact ⟨sc, tk, runOffer_did h⟩

end Sys2Proof.Machine
end

