-- ==== Sys2Proof/Laws/Sound.lean ====
section
/-!
SUPPORT. Facts of a sound state that the invariant proofs rest on: the queue's groups, the slots in turn, and what the
invariants of Safety.lean depend on.
-/

namespace Sys2Proof.Safety

open Sys2Proof.Machine

/-- Going on by fewer than `n` places from a place below `n` does not come back to it. -/
theorem mod_advance_ne {h k n : Nat} (hh : h < n) (hk : 0 < k) (hkn : k < n) : (h + k) % n ≠ h := by
  by_cases hl : h + k < n
  · rw [Nat.mod_eq_of_lt hl]
    omega
  · rw [Nat.mod_eq_sub_mod (by omega), Nat.mod_eq_of_lt (by omega)]
    omega

/-- A queue holds no more NoOps than entries. -/
theorem noops_le_length (q : List Command) : noops q ≤ q.length := List.countP_le_length

/-- Data Commands hold no NoOp. -/
theorem noops_map_data (ds : List DataCmd) : noops (ds.map Command.data) = 0 := by
  induction ds with
  | nil => rfl
  | cons d ds ih => simpa using ih

/-- A non-empty queue of legal shape is its head group, a legal list and its NoOp, and a rest of legal shape
(rule R36). -/
theorem wellGrouped_split {q : List Command} (h : wellGrouped q = true) (hne : q ≠ []) :
    ∃ ds r, q = ds.map Command.data ++ .noop :: r ∧ LegalCmds ds ∧ wellGrouped r = true := by
  unfold wellGrouped at h
  split at h
  · exact absurd rfl hne
  · rename_i c r
    exact ⟨[c], r, rfl, .inl ⟨c, rfl⟩, h⟩
  · rename_i c d r
    simp only [Bool.and_eq_true, decide_eq_true_eq] at h
    exact ⟨[c, d], r, rfl, .inr ⟨c, d, rfl, h.1.1, h.1.2⟩, h.2⟩
  · cases h

/-- A group put behind a queue of legal shape. -/
theorem wellGrouped_append {q : List Command} {cs : List DataCmd} (h : wellGrouped q = true) (hc : LegalCmds cs) :
    wellGrouped (q ++ group cs) = true := by
  induction q using wellGrouped.induct with
  | case1 =>
    rcases hc with ⟨c, rfl⟩ | ⟨c, d, rfl, h1, h2⟩
    · rfl
    · simp [group, wellGrouped, h1, h2]
  | case2 c r ih =>
    simp only [wellGrouped, List.cons_append] at h ⊢
    exact ih h
  | case3 c d r ih =>
    simp only [wellGrouped, List.cons_append, Bool.and_eq_true] at h ⊢
    exact ⟨h.1, ih h.2⟩
  | case4 q h1 h2 h3 =>
    unfold wellGrouped at h
    split at h <;> simp_all

/-- A phase is read from the slots alone. -/
theorem phaseAt_congr {s t : State} (h : t.slots = s.slots) (i : Nat) : phaseAt t i = phaseAt s i := by
  simp only [phaseAt, h]

/-- The invariants depend on the engine, its parameters, two of its model faults and the form of memory. -/
theorem inv_congr {s t : State} (h : Inv s) (h1 : t.params = s.params) (h2 : t.slots = s.slots)
    (h3 : t.head = s.head) (h4 : t.queue = s.queue) (h5 : t.armed = s.armed) (h6 : t.cursor = s.cursor)
    (h7 : t.waitStop = s.waitStop) (h8 : t.faults.noopAtHead = s.faults.noopAtHead)
    (h9 : t.faults.readNotLast = s.faults.readNotLast) (h10 : Memory.wf t.mem = true) : Inv t where
  params := by rw [h1]; exact h.params
  slots := by rw [h1, h2]; exact h.slots
  head := by rw [h1, h3]; exact h.head
  shape := by rw [h4]; exact h.shape
  capacity := by rw [h4, h1]; exact h.capacity
  armed := by rw [h4, h5]; exact h.armed
  idle := by rw [h4, h6, h7]; exact h.idle
  cursor := by rw [h4, h6]; exact h.cursor
  waiting := by rw [h4, h7]; exact h.waiting
  queued := by
    rw [h4, h3, h1]
    intro j hj
    rw [phaseAt_congr h2]
    exact h.queued j hj
  fresh := by
    rw [h4, h3, h1]
    intro j h0 hj
    rw [phaseAt_congr h2]
    exact h.fresh j h0 hj
  errors := by
    intro i
    rw [phaseAt_congr h2]
    exact h.errors i
  faults := by rw [h8, h9]; exact h.faults
  mem := h10

/-- In a sound state with a transaction queued the head slot is not terminal (rules R39, R175). -/
theorem headPhase_not_terminal {s : State} (h : Inv s) (hne : s.queue ≠ []) :
    phaseTerminal (headPhase s) = false := by
  obtain ⟨ds, r, hq, _, _⟩ := wellGrouped_split h.shape hne
  have h0 := h.queued 0 (by simp [hq])
  rwa [Nat.add_zero, Nat.mod_eq_of_lt h.head] at h0

/-- In a sound state writing the head slot with its own phase changes nothing. -/
theorem set_headPhase_self {s : State} (h : Inv s) : s.slots.set s.head (headPhase s) = s.slots := by
  have hl : s.head < s.slots.length := by rw [h.slots]; exact h.head
  have : headPhase s = s.slots[s.head] := by
    simp [headPhase, phaseAt, List.getD_eq_getElem?_getD, hl]
  rw [this, List.set_getElem_self]

/-- In a sound state the head slot after a write holds what was written. -/
theorem headPhase_of_set {s t : State} {p : Phase} (h : Inv s) (hs : t.slots = s.slots.set s.head p)
    (hh : t.head = s.head) : headPhase t = p := by
  have hl : s.head < s.slots.length := by rw [h.slots]; exact h.head
  simp [headPhase, phaseAt, hs, hh, List.getD_eq_getElem?_getD, hl]

end Sys2Proof.Safety
end

