-- ==== Sys2Proof/Tests/Slice0.lean ====
section
/-!
SUPPORT. Tests: ill-formed terms refused, words written out by hand from the spec's encodings, single steps with the
results of 95_test_vectors, and a witness for the hypotheses of every obligation that has any.
-/

namespace Sys2Proof.Tests

open Sys2Proof.Machine Sys2Proof.Safety Sys2Proof.Spec

/-! ### WellFormed: each check refuses an ill-formed term -/

theorem test_wf_ready_slot : Instr.wf 4 (.futureReady 4) = false ∧ Instr.wf 4 (.futureReady 3) = true := by decide
theorem test_wf_block_slot : Instr.wf 4 (.futureBlock 4) = false ∧ Instr.wf 4 (.futureBlock 3) = true := by decide
theorem test_wf_capacity :
    Params.wf { Params.default with n := 1 } = false ∧ Params.wf { Params.default with n := 257 } = false ∧
      Params.wf { Params.default with n := 2 } = true ∧ Params.wf { Params.default with n := 256 } = true := by decide
theorem test_wf_cr1_clash : RegLayout.wf { RegLayout.default with start := 9 } = false := by decide
theorem test_wf_cr2_clash : RegLayout.wf { RegLayout.default with itevten := 8 } = false := by decide
theorem test_wf_sr1_clash : RegLayout.wf { RegLayout.default with af := 11 } = false := by decide
theorem test_wf_cr1_range : RegLayout.wf { RegLayout.default with stop := 32 } = false := by decide
theorem test_wf_cr2_range : RegLayout.wf { RegLayout.default with itbufen := 32 } = false := by decide
theorem test_wf_sr1_range : RegLayout.wf { RegLayout.default with timeout := 32 } = false := by decide
theorem test_wf_params_layout :
    Params.wf { Params.default with layout := { RegLayout.default with af := 11 } } = false := by decide

/-! ### Decode: words written out from the spec's tables -/

/-- The outcome of a decoder as a value that can be compared. -/
def seen : Except DecodeError Instr → Option Instr ⊕ DecodeError
  | .ok i => .inl (some i)
  | .error e => .inr e

/-- A buffer of `n` bytes at the vectors' address `A`. -/
def bufA (n : Word) : Buf := ⟨0x20000000, n⟩
/-- A buffer of `n` bytes at the vectors' address `B`. -/
def bufB (n : Word) : Buf := ⟨0x20000100, n⟩
/-- A buffer of `n` bytes at the vectors' address `C`. -/
def bufC (n : Word) : Buf := ⟨0x20000200, n⟩

-- OP in bits 3:0, ARG8 in bits 11:4 (rules R71, R72), as in L2-1.
theorem test_decode_writeAsync :
    seen (decodeReq 4 .task 0b00000000000000000000_00111100_0001 (bufA 2) (bufB 7)) =
      .inl (some (.writeAsync 0x3C (bufA 2))) := by decide
theorem test_decode_readAsync :
    seen (decodeReq 4 .task 0b00000000000000000000_01001000_0010 (bufA 2) (bufB 7)) =
      .inl (some (.readAsync 0x48 (bufB 7))) := by decide
theorem test_decode_writeReadAsync :
    seen (decodeReq 4 .task 0b00000000000000000000_01101000_0011 (bufA 2) (bufB 7)) =
      .inl (some (.writeReadAsync 0x68 (bufA 2) (bufB 7))) := by decide
theorem test_decode_futureReady :
    seen (decodeReq 4 .task 0b00000000000000000000_00000010_0100 default default) =
      .inl (some (.futureReady 2)) := by decide
theorem test_decode_futureBlock :
    seen (decodeReq 4 .task 0b00000000000000000000_00000011_0101 default default) =
      .inl (some (.futureBlock 3)) := by decide
theorem test_decode_evIrq : seen (decodeReq 4 .interrupt 0x00000008 default default) = .inl (some .evIrq) := by decide
theorem test_decode_erIrq : seen (decodeReq 4 .interrupt 0x00000009 default default) = .inl (some .erIrq) := by decide
-- The refusals of L2-1.
theorem test_decode_refusals :
    seen (decodeReq 4 .task 0x00000044 default default) = .inr .badSlot ∧
      seen (decodeReq 4 .task 0x00000008 default default) = .inr .reserved ∧
      seen (decodeReq 4 .task 0x00000009 default default) = .inr .reserved ∧
      seen (decodeReq 4 .interrupt 0x00000018 default default) = .inr .reserved ∧
      seen (decodeReq 4 .task 0x00000006 default default) = .inr .reserved ∧
      seen (decodeReq 4 .task 0x001003C1 default default) = .inr .reserved ∧
      seen (decodeReq 4 .task 0x00000000 default default) = .inr .reserved := by decide
-- TAG in bits 1:0, ADDR in bits 9:2 of word 0 (rules R76, R77), as in L2-3.
theorem test_decode_cmdNoop : seen (decodeCmd ⟨0, 0, 0⟩) = .inl (some .cmdNoop) := by decide
theorem test_decode_cmdWrite :
    seen (decodeCmd ⟨0b0000000000000000000000_00111100_01, 0x20000000, 2⟩) =
      .inl (some (.cmdWrite 0x3C (bufA 2))) := by decide
theorem test_decode_cmdRead :
    seen (decodeCmd ⟨0b0000000000000000000000_01101000_10, 0x20000100, 7⟩) =
      .inl (some (.cmdRead 0x68 (bufB 7))) := by decide
theorem test_decode_cmd_reserved :
    seen (decodeCmd ⟨3, 0, 0⟩) = .inr .reserved ∧ seen (decodeCmd ⟨0x400, 0, 0⟩) = .inr .reserved := by decide
-- The flags of SR1 at their bits (rules R85, R87), as in L1-5.
theorem test_decode_evSb : decodeEvt .default 0x0007 .write false = .evSb := by decide
theorem test_decode_evAddrWrite : decodeEvt .default 0x0006 .write false = .evAddrWrite := by decide
theorem test_decode_evAddrRead : decodeEvt .default 0x0006 .read false = .evAddrRead := by decide
theorem test_decode_evBtfWrite : decodeEvt .default 0x4404 .write true = .evBtfWrite := by decide
theorem test_decode_evBtfRead : decodeEvt .default 0x0004 .read false = .evBtfRead := by decide
theorem test_decode_evBtfReadLast : decodeEvt .default 0x0004 .read true = .evBtfReadLast := by decide
theorem test_decode_evNone : decodeEvt .default 0x5F00 .write false = .evNone := by decide
theorem test_decode_erTimeout :
    decodeErr .default 0x5F00 = .erTimeout ∧ decodeErr .default 0x4404 = .erTimeout := by decide
theorem test_decode_erPecerr : decodeErr .default 0x1F00 = .erPecerr := by decide
theorem test_decode_erOvr : decodeErr .default 0x0F00 = .erOvr := by decide
theorem test_decode_erAf : decodeErr .default 0x0700 = .erAf := by decide
theorem test_decode_erArlo : decodeErr .default 0x0300 = .erArlo := by decide
theorem test_decode_erBerr : decodeErr .default 0x0100 = .erBerr := by decide
theorem test_decode_erNone :
    decodeErr .default 0x0007 = .erNone ∧ decodeErr .default 0xA0FF = .erNone := by decide
-- L2-2.
theorem test_address_bytes :
    addrByte 0x68 .write = 0xD0 ∧ addrByte 0x68 .read = 0xD1 ∧ addrByte 0x7F .read = 0xFF ∧
      addrByte 0xFF .write = 0xFE ∧ addrByte 0xBC .write = 0x78 := by decide
-- L2-3 and L1-4.
theorem test_value_encodings :
    encodeCommand (.data ⟨.read, 0x68, bufB 7⟩) = ⟨0x000001A2, 0x20000100, 7⟩ ∧
      encodePhase (.fail (.noAcknowledge .data)) = 0x1E ∧ encodePhase (.fail .arbitrationLoss) = 0x3E ∧
      encodePoll (.readyErr .crc) = 0x1A ∧ encodePoll (.readyErr (.noAcknowledge .data)) = 0x0E ∧
      encodeEnq (.ok 3) = 0x003 ∧ encodeEnq .busy = 0x100 := by decide

/-! ### Single steps: the vectors of L2 -/

/-- The next state, where there is one. -/
def nextOf : Host.Outcome State Fault Refusal → Option State
  | .next s => some s
  | _ => none

/-- What `f` reads off the next state of `i`. -/
def after {α : Type} (i : Instr) (s : State) (f : State → α) : Option α := (nextOf (exec i s)).map f

/-- The machine after reset on the reference bus, `N = 4`. -/
def engine : State := State.resetWith { Params.default with bus := .reference }
/-- `W(0x3C, A, n)`. -/
def wr (n : Word) : DataCmd := ⟨.write, 0x3C, bufA n⟩
/-- `R(0x68, B, n)`. -/
def rd (n : Word) : DataCmd := ⟨.read, 0x68, bufB n⟩
/-- `W(0x3C, C, 1)`. -/
def wc : DataCmd := ⟨.write, 0x3C, bufC 1⟩
/-- `CR1` once a START has been requested. -/
def started : Cr1 := { pe := true, start := true, stop := false, ack := true, other := 0 }
/-- `CR1` while a transfer runs. -/
def running : Cr1 := { started with start := false }
/-- An armed engine with queue `q`, slot 0 in phase `p`, `cursor` at `k` and a word of `SR1`. -/
def busy (q : List Command) (p : Phase) (k : Nat) (sr1 : Word) : State :=
  { engine with
    queue := q
    slots := [p, .begin, .begin, .begin]
    cursor := k
    armed := true
    cr1 := running
    sr1 := sr1OfWord .default sr1 }
/-- `Q = [c, N]`. -/
def only (c : DataCmd) : List Command := [.data c, .noop]
/-- `A = [0x00, 0xAE]`. -/
def memA : Memory := [(0x20000001, 0xAE)]

-- L2-4 Q1, Q6.
theorem test_writeAsync_idle :
    after (.writeAsync 0x3C (bufA 2)) engine
      (fun t => (t.queue, t.results, t.armed, t.cr1.ack, t.cr1.start)) =
      some (only (wr 2), [.enq (.ok 0)], true, true, true) := by decide
theorem test_writeAsync_behind :
    after (.writeAsync 0x3C (bufC 1)) { busy (only (rd 7)) .begin 0 0 with head := 2 }
      (fun t => (t.queue, t.results, t.cr1.start)) =
      some (only (rd 7) ++ only wc, [.enq (.ok 3)], false) := by decide
-- L2-4 Q7, and Q11 for a Read: the old verdict is overwritten.
theorem test_readAsync_slot_wraps :
    after (.readAsync 0x68 (bufB 2)) { busy (only (wr 2)) .finished 0 0 with head := 3 }
      (fun t => (t.queue, t.results, t.slots)) =
      some (only (wr 2) ++ only (rd 2), [.enq (.ok 0)], [.begin, .begin, .begin, .begin]) := by decide
theorem test_readAsync_reopens :
    after (.readAsync 0x68 (bufB 2)) { engine with slots := [.fail (.noAcknowledge .data), .begin, .begin, .begin] }
      (fun t => t.slots) = some [.begin, .begin, .begin, .begin] := by decide
-- L2-4 Q4, Q8.
theorem test_writeReadAsync_idle :
    after (.writeReadAsync 0x68 (bufA 1) (bufB 7)) { engine with head := 3 } (fun t => (t.queue, t.results)) =
      some ([.data ⟨.write, 0x68, bufA 1⟩, .data (rd 7), .noop], [.enq (.ok 3)]) := by decide
theorem test_writeReadAsync_busy :
    after (.writeReadAsync 0x68 (bufA 1) (bufB 7)) (State.resetWith { Params.default with n := 2 })
      (fun t => (t.queue, t.results, t.armed)) = some ([], [.enq .busy], false) := by decide
-- L2-7 F1, F2.
theorem test_futureReady_pending :
    after (.futureReady 2) { engine with slots := [.begin, .begin, .byteProcessing, .begin] } (fun t => t.results) =
      some [.poll .pending] := by decide
theorem test_futureReady_failed :
    after (.futureReady 0) (busy [] (.fail (.noAcknowledge .data)) 0 0) (fun t => t.results) =
      some [.poll (.readyErr (.noAcknowledge .data))] := by decide
-- L2-7 F4, F5.
theorem test_futureBlock_returns :
    after (.futureBlock 0) (busy [] .finished 0 0) (fun t => (t.results, t.blocked)) =
      some ([.poll .readyOk], []) := by decide
theorem test_futureBlock_holds :
    after (.futureBlock 0) (busy (only (wr 2)) .addressSend 1 0) (fun t => (t.results, t.blocked)) =
      some ([], [⟨0, false, false⟩]) := by decide
-- Rule R275: a block issued from a handler's own code holds, the handlers cannot enter and the hold is not lifted.
theorem test_futureBlock_raised_holds :
    after (.futureBlock 0) { busy (only (wr 2)) .addressSend 1 0x004 with raised := true }
      (fun t => (t.results, t.blocked, handlersFree t, taskMayRun t)) = some ([], [⟨0, false, true⟩], false, false) := by
  decide
-- Rule R141: Finalize keeps a Fail; with more queued it starts the next transaction.
theorem test_cmdNoop_keeps_fail :
    after .cmdNoop (busy [.noop] (.fail .timeout) 0 0) (fun t => (t.queue, t.slots.head?, t.head, t.armed)) =
      some ([], some (.fail .timeout), 1, false) := by decide
theorem test_cmdNoop_chains :
    after .cmdNoop { busy (.noop :: only (wr 2)) .addressSend 0 0 with head := 3 }
      (fun t => (t.queue, t.head, t.armed, t.cr1.start)) = some (only (wr 2), 0, true, true) := by decide
-- L2-4 Q9, Q2 at the raw enqueue port.
theorem test_cmdWrite_fills :
    after (.cmdWrite 0x3C (bufA 0)) { State.resetWith { Params.default with n := 2 } with head := 1 }
      (fun t => (t.queue, t.results)) = some (only (wr 0), [.enq (.ok 1)]) := by decide
theorem test_cmdRead_behind :
    after (.cmdRead 0x68 (bufB 2)) (busy (only (wr 2)) .begin 0 0) (fun t => (t.queue, t.results)) =
      some (only (wr 2) ++ only (rd 2), [.enq (.ok 1)]) := by decide
-- L2-5 E2, E3.
theorem test_evSb_read :
    after .evSb (busy (only (rd 7)) .begin 0 0x001) (fun t => (t.slots.head?, t.drTx, t.sr1.sb)) =
      some (some .startGenerated, 0xD1, false) := by decide
theorem test_evSb_other_flags :
    after .evSb (busy (only (wr 2)) .begin 0 0x007) (fun t => (t.sr1.sb, t.sr1.addr, t.sr1.btf, t.drTx, t.cursor)) =
      some (false, true, true, 0x78, 0) := by decide
-- L2-5 E4, E6.
theorem test_evAddrWrite_first_byte :
    after .evAddrWrite { busy (only (wr 2)) .startGenerated 0 0x002 with mem := memA, mode := .txIdle }
      (fun t => (t.slots.head?, t.sr1.addr, t.drTx, t.cursor, t.mode)) =
      some (some .addressSend, false, 0x00, 1, .txInFlight 0x00) := by decide
theorem test_evAddrWrite_empty_before_read :
    after .evAddrWrite (busy [.data (wr 0), .data (rd 7), .noop] .startGenerated 0 0x002)
      (fun t => (t.queue, t.slots.head?, t.cr1.start, t.cr1.stop)) =
      some (only (rd 7), some .begin, true, false) := by decide
-- L2-5 E7, E8.
theorem test_evAddrRead :
    after .evAddrRead (busy (only (rd 7)) .startGenerated 0 0x002) (fun t => (t.slots.head?, t.sr1.addr, t.cursor)) =
      some (some .addressSend, false, 0) := by decide
theorem test_evAddrRead_empty :
    after .evAddrRead (busy (only (rd 0)) .startGenerated 0 0x002)
      (fun t => (t.queue, t.cr1.stop, t.cr1.ack, t.slots.head?, t.head, t.armed)) =
      some ([], true, true, some .finished, 1, false) := rfl
-- L2-5 E9, E10.
theorem test_evBtfWrite_next_byte :
    after .evBtfWrite { busy (only (wr 2)) .addressSend 1 0x004 with mem := memA }
      (fun t => (t.slots.head?, t.sr1.btf, t.drTx, t.cursor)) = some (some .byteProcessing, false, 0xAE, 2) := by decide
theorem test_evBtfWrite_chains :
    after .evBtfWrite (busy (only (wr 2) ++ only (rd 2)) .byteProcessing 2 0x004)
      (fun t => (t.queue, t.cursor, t.slots.head?, t.head, t.cr1.stop, t.cr1.start)) =
      some (only (rd 2), 0, some .finished, 1, true, true) := by decide
-- L2-5 E14, E17.
theorem test_evBtfRead_second_to_last :
    after .evBtfRead { busy (only (rd 2)) .addressSend 0 0x004 with drRx := 0x12 }
      (fun t => (t.mem, t.cursor, t.cr1.ack, t.cr1.stop, t.slots.head?)) =
      some ([(0x20000100, 0x12)], 1, false, true, some .lastByte) := by decide
theorem test_evBtfRead_overflow :
    after .evBtfRead { busy (only (rd 1)) .byteProcessing 1 0x004 with drRx := 0x78 }
      (fun t => (t.sr1.btf, t.faults.rxOverflow, t.mem, t.cursor, t.slots.head?)) =
      some (false, true, [], 1, some .byteProcessing) := rfl
-- L2-5 E18.
theorem test_evBtfReadLast :
    after .evBtfReadLast { busy (only (rd 7)) .lastByte 6 0x004 with drRx := 0x19 }
      (fun t => (t.sr1.btf, t.mem, t.cursor, t.waitStop)) = some (false, [(0x20000106, 0x19)], 7, true) := by decide
-- L2-5 E23.
theorem test_evNone :
    exec .evNone (busy (only (wr 2)) .begin 0 0) = .next (busy (only (wr 2)) .begin 0 0) := rfl
-- L2-5 E21, E22.
theorem test_evIrq_idle :
    after .evIrq { engine with sr1 := sr1OfWord .default 0x003 } (fun t => (t.sr1.sb, t.sr1.addr)) =
      some (false, true) := by decide
theorem test_evIrq_noop :
    after .evIrq (busy [.noop] .begin 0 0x001) (fun t => (t.faults.noopAtHead, t.sr1.sb, t.queue)) =
      some (true, true, [.noop]) := by decide
-- L2-6 X1.
theorem test_erTimeout :
    after .erTimeout { busy (only (wr 2)) .begin 1 0x4400 with
        head := 2, slots := [.begin, .begin, .byteProcessing, .begin] }
      (fun t => (t.sr1.timeout, t.sr1.af, t.slots, t.queue, t.cursor, t.head, t.armed)) =
      some (false, true, [.begin, .begin, .fail .timeout, .begin], [], 0, 3, false) := rfl
-- L2-6 X2.
theorem test_erPecerr :
    after .erPecerr (busy (only (rd 4)) .byteProcessing 1 0x1000)
      (fun t => (t.slots.head?, t.queue, t.head, t.armed)) = some (some (.fail .crc), [], 1, false) := by decide
-- L2-6 X3.
theorem test_erOvr :
    after .erOvr (busy (only (wr 2) ++ only wc) .byteProcessing 1 0x0C00)
      (fun t => (t.sr1.ovr, t.sr1.af, t.slots.head?, t.queue, t.cr1.ack, t.cr1.start)) =
      some (false, true, some (.fail .overrun), only wc, true, true) := rfl
-- L2-6 X4, X13.
theorem test_erAf_address :
    after .erAf (busy (only (wr 2)) .startGenerated 0 0x0400) (fun t => t.slots.head?) =
      some (some (.fail (.noAcknowledge .address))) := by decide
theorem test_erAf_skips_both :
    after .erAf (busy ([.data (wr 1), .data (rd 7), .noop] ++ only wc) .addressSend 1 0x0400)
      (fun t => (t.slots, t.queue, t.cursor, t.head, t.cr1.start, t.cr1.stop)) =
      some ([.fail (.noAcknowledge .data), .begin, .begin, .begin], only wc, 0, 1, true, false) := by decide
-- L2-6 X9.
theorem test_erArlo :
    after .erArlo (busy (only (wr 2)) .byteProcessing 1 0x0200) (fun t => (t.sr1.arlo, t.slots.head?)) =
      some (false, some (.fail .arbitrationLoss)) := by decide
-- L2-6 X10.
theorem test_erBerr :
    after .erBerr (busy (only (wr 2)) .byteProcessing 1 0x0100) (fun t => (t.sr1.berr, t.queue, t.slots.head?, t.cursor)) =
      some (false, only (wr 2), some .byteProcessing, 1) := by decide
-- L2-6 X16.
theorem test_erNone :
    exec .erNone (busy [] .begin 0 0x0004) = .next (busy [] .begin 0 0x0004) := rfl
-- L2-6 X15, X11.
theorem test_erIrq_idle :
    after .erIrq { engine with sr1 := sr1OfWord .default 0x0400 } (fun t => (t.sr1.af, t.slots)) =
      some (false, [.begin, .begin, .begin, .begin]) := by decide
theorem test_erIrq_priority :
    after .erIrq (busy (only (wr 2)) .byteProcessing 1 0x0300) (fun t => (t.sr1.arlo, t.sr1.berr, t.slots.head?)) =
      some (false, true, some (.fail .arbitrationLoss)) := by decide
-- L2-5 E19, E20: the end of the STOP wait.
theorem test_stopWait_ends :
    (nextOf (runMove .stopWait { busy (only (rd 7)) .lastByte 7 0 with waitStop := true })).map
      (fun t => (t.waitStop, t.queue, t.cursor, t.slots.head?, t.cr1.stop, t.armed)) =
      some (false, [], 0, some .finished, false, false) := rfl
theorem test_stopWait_chains :
    (nextOf (runMove .stopWait { busy (only (rd 7) ++ only wc) .lastByte 7 0 with waitStop := true })).map
      (fun t => (t.queue, t.head, t.cr1.ack, t.cr1.start)) = some (only wc, 1, true, true) := by decide
-- L2-8 B1 to B5.
theorem test_bus_stop_first :
    busStep .start { engine with mode := .txIdle, cr1 := { started with stop := true } } =
      { engine with mode := .txIdle, cr1 := { started with stop := true } } := by decide
theorem test_bus_receive_waits :
    (busStep (.receive 1) { engine with mode := .rx, sr1 := sr1OfWord .default 0x004 }).wire = [] := by decide
theorem test_bus_ignores_byte : (writeDr 0x11 engine).mode = .idle := by decide
theorem test_bus_nack :
    (fun t : State => (t.wire, t.sr1.af, t.mode, t.held))
      (busStep (.address false) { engine with mode := .addrInFlight 0xA1, held := true }) =
      ([.nacked 0xA1], true, .idle, true) := by decide
theorem test_bus_last_byte :
    (fun t : State => (t.wire, t.drRx, t.sr1.btf, t.mode)) (busStep (.receive 0x19) { engine with mode := .rx }) =
      ([.nacked 0x19], 0x19, true, .rxDone) := by decide
-- The first step after reset runs the placed word.
theorem test_first_step_runs_the_word :
    (nextOf (step (State.reset.withFetchWord 32 0x3C1))).map (fun t => (t.queue, t.results)) =
      some ([.data ⟨.write, 0x3C, default⟩, .noop], [.enq (.ok 0)]) := by decide
theorem test_table_words :
    decodeTableWord 32 0x3C1 = some (.writeAsync 0x3C default) ∧ decodeTableWord 32 0x8 = some .evIrq ∧
      decodeTableWord 8 0x4 = some .evBtfWrite ∧ decodeTableWord 16 0x0C00 = some .erOvr ∧
      decodeTableWord 96 0xF1 = some (.cmdWrite 0x3C default) ∧ decodeTableWord 32 0x6 = none := by decide

/-! ### Witnesses: the hypotheses of every obligation that has any, met together, clause by clause -/

/-- There is a next state. -/
def runs (o : Host.Outcome State Fault Refusal) : Bool := (nextOf o).isSome

/-- A sound and calm state: a Read just enqueued, its START requested, slot 3's old transaction finished. -/
def calmState : State :=
  { busy (only (rd 2)) .begin 0 0 with cr1 := started, slots := [.begin, .begin, .begin, .finished] }

/-- Reading a slot of `calmState`. -/
theorem phaseAt_calmState (i : Nat) : phaseAt calmState i = if i = 3 then .finished else .begin := by
  match i with
  | 0 => rfl
  | 1 => rfl
  | 2 => rfl
  | 3 => rfl
  | n + 4 => simp [phaseAt, calmState, busy]

/-- `calmState` is sound. -/
theorem inv_calmState : Inv calmState where
  params := by decide
  slots := rfl
  head := by decide
  shape := rfl
  capacity := by decide
  armed := rfl
  idle := by intro h; cases h
  cursor := by intro c r h; exact Nat.zero_le _
  waiting := by intro h; cases h
  queued := by
    intro j hj
    have : j = 0 := Nat.lt_one_iff.1 hj
    subst this
    rfl
  fresh := by
    intro j h0 hj
    have : j < 1 := hj
    omega
  errors := by
    intro i
    rw [phaseAt_calmState]
    split <;> decide
  faults := ⟨rfl, rfl⟩
  mem := rfl

/-- `calmState` is calm. -/
theorem calm_calmState : Calm calmState where
  inv := inv_calmState
  reference := rfl
  reads := by
    intro c hc hd
    have : c = rd 2 := by simpa [calmState, busy, only] using hc
    subst this
    decide
  noInjected := rfl
  noOverflow := rfl
  onHead := by
    intro c r h
    exact ⟨rfl, rfl, rfl, rfl, rfl, .inl ⟨rfl, rfl, rfl⟩⟩
  onIdle := by intro h; cases h

/-- `calmState` with one offer waiting. -/
def offering (m : Move) : State := offerNext (.agent m) calmState

theorem inv_offering (m : Move) : Inv (offering m) :=
  inv_congr inv_calmState rfl rfl rfl rfl rfl rfl rfl rfl rfl rfl

theorem calm_offering (m : Move) : Calm (offering m) where
  inv := inv_offering m
  reference := rfl
  reads := calm_calmState.reads
  noInjected := rfl
  noOverflow := rfl
  onHead := by
    intro c r h
    exact ⟨rfl, rfl, rfl, rfl, rfl, .inl ⟨rfl, rfl, rfl⟩⟩
  onIdle := by intro h; cases h

theorem witness_decode_of_encode :
    Params.default.wf = true ∧ Instr.wf 4 (.futureBlock 3) = true ∧ Instr.wf 4 (.writeReadAsync 0xFF default default) = true := by
  decide
theorem witness_request_fields :
    [0xFF1, 0xFF2, 0xFF3, 0x034, 0x044, 0x035, 0xFF6, 0xFFF, 0x000, 0x008, 0x009, 0x00A].all (· < 2 ^ 12) = true := by
  decide
theorem witness_reserved_requests :
    taskMayRun engine = true ∧ 2 ^ 12 ≤ (0x1001 : Word).toNat ∧ (0xFF0 : Word).toNat % 16 = 0 ∧
      6 ≤ (0x006 : Word).toNat % 16 ∧ (0x018 : Word).toNat ≠ 8 ∧ (0x018 : Word).toNat ≠ 9 := by decide
theorem witness_ev_entry :
    (0x7 : Word) &&& 0x1 = 0x1 ∧ (0x6 : Word) &&& 0x3 = 0x2 ∧ (0x4 : Word) &&& 0x7 = 0x4 ∧ (0xF8 : Word) &&& 0x7 = 0x0 ∧
      calmState.params.layout = .default ∧ calmState.queue = .data (rd 2) :: [.noop] ∧ engine.queue = [] := by decide
theorem witness_er_entry :
    (0x5F00 : Word) &&& 0x4000 = 0x4000 ∧ (0x1F00 : Word) &&& 0x5000 = 0x1000 ∧ (0x0F00 : Word) &&& 0x5800 = 0x0800 ∧
      (0x0700 : Word) &&& 0x5C00 = 0x0400 ∧ (0x0300 : Word) &&& 0x5E00 = 0x0200 ∧ (0x0100 : Word) &&& 0x5F00 = 0x0100 ∧
      (0xA0FF : Word) &&& 0x5F00 = 0x0000 ∧ engine.params.layout = .default := by decide
theorem witness_queue_entry : (⟨7, 0, 0⟩ : CmdWords).w0.toNat % 4 = 3 := by decide
theorem witness_enq_value : 255 < 256 ∧ 9 ≤ 15 := by decide
theorem witness_status_word : RegLayout.default.wf = true := by decide
theorem witness_controller_words : State.reset.params.layout = .default := rfl
theorem witness_reset_sound :
    Params.default.wf = true ∧ engine.params.wf = true ∧ engine.params.bus = .reference := by decide
theorem witness_step_keeps :
    Inv (offering (.bus .start)) ∧ runs (step (offering (.bus .start))) = true := ⟨inv_offering _, by decide⟩
theorem witness_stays_calm :
    Calm (offering (.bus .start)) ∧ (takeOffer (offering (.bus .start))).1 = .agent (.bus .start) ∧
      calmMove (.bus .start) = true ∧ runs (step (offering (.bus .start))) = true :=
  ⟨calm_offering _, rfl, rfl, by decide⟩
theorem witness_serving_step :
    Calm calmState ∧ servingMove (.bus .start) = true ∧ calmMove (.bus .start) = true ∧
      runs (runMove (.bus .start) calmState) = true := ⟨calm_calmState, rfl, rfl, by decide⟩
theorem witness_served :
    Calm calmState ∧ calmState.queue ≠ [] ∧ calmState.critical = false ∧ calmState.raised = false ∧
      buffersInSpace calmState.queue := by
  refine ⟨calm_calmState, by decide, rfl, rfl, ?_⟩
  intro c hc
  have : c = rd 2 := by simpa [calmState, busy, only] using hc
  subst this
  decide
theorem witness_step_task :
    (offering (.task 0x3C1 default default)).script = .agent (.task 0x3C1 default default) :: [] ∧
      taskMayRun (offering (.task 0x3C1 default default)) = true ∧
      seen (decode engine.params (.req .task 0x3C1 default default)) = .inl (some (.writeAsync 0x3C default)) ∧
      seen (decode engine.params (.req .task 0x044 default default)) = .inr .badSlot := by decide
theorem witness_step_interrupt :
    seen (decode engine.params (.req .interrupt 8 default default)) = .inl (some .evIrq) ∧
      mayEnter .evIrq (busy (only (wr 2)) .begin 0 0x001) = true := by decide
theorem witness_step_entry :
    taskMayRun (offering (.rawEnqueue [⟨0xF1, 0, 0⟩])) = true ∧
      seen (decode engine.params (.cmd ⟨0xF1, 0, 0⟩)) = .inl (some (.cmdWrite 0x3C default)) := by decide
theorem witness_handler_enters :
    (fun s : State => s.armed = true ∧ s.sr1.sb = true ∧ s.sr1.berr = true ∧ s.waitStop = false ∧ s.critical = false ∧
      s.raised = false)
      (busy (only (wr 2)) .begin 0 0x101) ∧ engine.armed = false ∧ engine.sr1.sb = false ∧ engine.sr1.berr = false := by
  decide
theorem witness_stop_wait_steps :
    (fun s : State => s.waitStop = true ∧ s.cr1.stop = true ∧ runs (runMove .stopWait s) = true)
      { calmState with waitStop := true, cr1 := { running with stop := true } } := by decide
theorem witness_block_where_no_handler_runs :
    (fun s : State => s.critical = true ∧ s.waitStop = false ∧ ⟨0, true, false⟩ ∈ s.blocked ∧
      phaseTerminal (phaseAt s 0) = false ∧ runs (runMove (.bus .start) s) = true)
      { calmState with critical := true, blocked := [⟨0, true, false⟩] } ∧
    (fun s : State => s.raised = true ∧ s.waitStop = false ∧ ⟨0, false, true⟩ ∈ s.blocked ∧
      phaseTerminal (phaseAt s 0) = false ∧ runs (runMove (.bus .start) s) = true)
      { calmState with raised := true, blocked := [⟨0, false, true⟩] } := by decide
theorem witness_busy_where_no_handler_runs :
    (fun s : State => s.raised = true ∧ s.waitStop = false ∧ runs (runMove (.bus .start) s) = true ∧
      s.params.n < s.queue.length + 3) { busy (only (wr 2) ++ only wc) .begin 0 0 with raised := true } := by decide
theorem witness_enqueue_idle :
    enqueues (.writeReadAsync 1 (bufA 0) (bufB 2)) = some [⟨.write, 1, bufA 0⟩, ⟨.read, 1, bufB 2⟩] ∧
      (State.resetWith { Params.default with n := 3 }).queue = [] ∧ 2 + 1 ≤ { Params.default with n := 3 }.n := by decide
theorem witness_enqueue_behind :
    enqueues (.cmdRead 1 (bufB 2)) = some [⟨.read, 1, bufB 2⟩] ∧ calmState.queue ≠ [] ∧
      calmState.queue.length + 1 + 1 ≤ calmState.params.n := by decide
theorem witness_enqueue_busy :
    enqueues (.writeReadAsync 1 (bufA 0) (bufB 2)) = some [⟨.write, 1, bufA 0⟩, ⟨.read, 1, bufB 2⟩] ∧
      calmState.params.n < calmState.queue.length + 2 + 1 := by decide
theorem witness_next_slot : Inv calmState ∧ 0 < noops calmState.queue := ⟨inv_calmState, by decide⟩
theorem witness_slots_in_turn :
    Inv (offering (.task 0x3C1 (bufA 1) default)) ∧ runs (step (offering (.task 0x3C1 (bufA 1) default))) = true :=
  ⟨inv_offering _, by decide⟩
theorem witness_raw_shapes :
    taskMayRun engine = true ∧ (wr 1).dir = .write ∧ (rd 1).dir = .read ∧
      legalShape [.data (rd 1), .data (wr 1)] = none ∧ legalShape [.noop] = none := by decide
theorem witness_ready :
    (2 : Byte).toNat < engine.params.n ∧ phaseAt engine 2 = .begin ∧ (3 : Byte).toNat < calmState.params.n ∧
      phaseAt calmState 3 = .finished ∧ phaseAt (busy [] (.fail .crc) 0 0) 0 = .fail .crc := by decide
theorem witness_block :
    phaseTerminal (phaseAt engine 2) = false ∧
      ({ engine with blocked := [⟨3, false, false⟩] } : State).blocked[0]? = some ⟨3, false, false⟩ ∧
      engine.waitStop = false ∧ engine.critical = false ∧ engine.raised = false := by decide
/-- A buffer at the top of the address space: its second byte has no address. -/
def topBuf : Buf := ⟨0xFFFFFFFF, 2⟩
theorem witness_stops_by_name :
    engine.params.n ≤ (4 : Byte).toNat ∧ engine.queue ≠ [.noop] ∧
      (busy (only (rd 2)) .lastByte 1 0).queue = .data (rd 2) :: [.noop] ∧
      headPhase (busy (only (rd 2)) .lastByte 1 0) = .lastByte ∧
      headPhase (busy (only (rd 2)) .begin 1 0) ≠ .lastByte ∧ (wr 1).dir = .write ∧ (rd 2).dir = .read ∧
      (busy (only ⟨.write, 0x3C, topBuf⟩) .addressSend 1 0).cursor < topBuf.len.toNat ∧
      2 ^ 32 ≤ bufAddr topBuf 1 := by decide
theorem witness_address_byte : calmState.queue = .data (rd 2) :: [.noop] := rfl
theorem witness_start_bit : calmState.queue = .data (rd 2) :: [.noop] := rfl
theorem witness_write_ends :
    (fun s : State => s.queue = .data (wr 0) :: [.noop] ∧ (wr 0).dir = .write ∧ (wr 0).buf.len.toNat ≤ s.cursor)
      (busy (only (wr 0)) .startGenerated 0 0x002) := by decide
theorem witness_next_byte :
    (fun s : State => s.queue = .data (wr 2) :: [.noop] ∧ (wr 2).dir = .write ∧ s.cursor < (wr 2).buf.len.toNat ∧
      bufAddr (wr 2).buf s.cursor < 2 ^ 32) (busy (only (wr 2)) .addressSend 1 0x004) := by decide
theorem witness_last_write_byte :
    (fun s : State => s.queue = .data (wr 2) :: .noop :: [] ∧ (wr 2).dir = .write ∧ (wr 2).buf.len.toNat ≤ s.cursor)
      (busy (only (wr 2)) .byteProcessing 2 0x004) := by decide
theorem witness_write_then_read :
    (fun s : State => s.queue = .data (wr 0) :: .data (rd 7) :: [.noop] ∧ (wr 0).dir = .write ∧
      (wr 0).buf.len.toNat ≤ s.cursor) (busy [.data (wr 0), .data (rd 7), .noop] .startGenerated 0 0x002) := by decide
theorem witness_addr_read :
    (rd 1).dir = .read ∧ 0 < (rd 1).buf.len.toNat ∧ (rd 0).buf.len.toNat = 0 ∧
      (busy (only (rd 0)) .startGenerated 0 0x002).queue = .data (rd 0) :: .noop :: [] := by decide
theorem witness_captures :
    (fun s : State => s.queue = .data (rd 3) :: [.noop] ∧ headPhase s ≠ .lastByte ∧ s.cursor < (rd 3).buf.len.toNat ∧
      bufAddr (rd 3).buf s.cursor < 2 ^ 32 ∧ s.cursor + 2 ≠ (rd 3).buf.len.toNat)
      (busy (only (rd 3)) .addressSend 0 0x004) ∧
    (busy (only (rd 3)) .byteProcessing 1 0x004).cursor + 2 = (rd 3).buf.len.toNat := by decide
theorem witness_last_read_byte :
    (fun s : State => s.queue = .data (rd 7) :: [.noop] ∧ headPhase s = .lastByte ∧ s.cursor < (rd 7).buf.len.toNat ∧
      bufAddr (rd 7).buf s.cursor < 2 ^ 32) (busy (only (rd 7)) .lastByte 6 0x004) := by decide
theorem witness_overflow :
    (rd 1).buf.len.toNat ≤ (busy (only (rd 1)) .byteProcessing 1 0x004).cursor ∧
      headPhase (busy (only (rd 1)) .byteProcessing 1 0x004) ≠ .lastByte ∧
      headPhase (busy (only (rd 1)) .lastByte 1 0x004) = .lastByte := by decide
theorem witness_stop_wait_ends :
    (fun s : State => s.waitStop = true ∧ s.cr1.stop = false ∧ s.queue = .data (rd 7) :: .noop :: [])
      { busy (only (rd 7)) .lastByte 7 0 with waitStop := true } ∧
    ({ started with stop := true } : Cr1).stop = true := by decide
theorem witness_noop_at_head :
    (busy [.noop] .begin 0 0).queue = .noop :: [] ∧ isEvent .evIrq = true ∧
      (fun s : State => s.queue = .data (wr 2) :: [.noop] ∧ s.sr1.sb = false ∧ s.sr1.addr = false ∧ s.sr1.btf = false)
        (busy (only (wr 2)) .begin 0 0) := by decide
theorem witness_end_command :
    (busy (only (rd 7)) .lastByte 7 0).queue = .data (rd 7) :: .noop :: [] ∧
      (busy [.data (rd 1), .data (rd 7), .noop] .lastByte 1 0).queue = .data (rd 1) :: .data (rd 7) :: [.noop] ∧
      (wr 1).dir = .write ∧ (rd 1).dir = .read := by decide
theorem witness_noop_finalized :
    headPhase (busy [.noop] .begin 0 0) = .begin ∧ headPhase (busy [.noop] (.fail .crc) 0 0) = .fail .crc ∧
      (busy [.noop] .begin 0 0).queue = .noop :: [] := by decide
theorem witness_reported :
    reports .startGenerated .erAf = some (.noAcknowledge .address) ∧
      (busy (only (wr 2) ++ only wc) .startGenerated 0 0x400).queue = [wr 2].map .data ++ .noop :: only wc := by decide
theorem witness_unreported : engine.queue = [] ∧ isError .erTimeout = true ∧ Instr.erTimeout ≠ .erIrq := by decide
theorem witness_entries_complete : Inv calmState ∧ buffersInSpace calmState.queue :=
  ⟨inv_calmState, witness_served.2.2.2.2⟩
theorem witness_event_frame :
    isEvent .evBtfRead = true ∧ runs (exec .evBtfRead (busy (only (rd 3)) .addressSend 0 0x004)) = true ∧
      isEvent .evSb = true ∧ runs (exec .evSb (busy (only (wr 3)) .begin 0 0x001)) = true := by decide
theorem witness_error_frame :
    isError .erIrq = true ∧ runs (exec .erIrq (busy (only (wr 2) ++ only wc) .startGenerated 0 0x400)) = true := by decide
theorem witness_host_frame :
    enqueues (.writeAsync 1 (bufA 1)) ≠ none ∧ runs (exec (.writeAsync 1 (bufA 1)) calmState) = true ∧
      isFuture (.futureBlock 0) = true ∧ runs (exec (.futureBlock 0) calmState) = true := by decide
theorem witness_slot_rule :
    Inv (offering (.task 0x3C1 (bufA 1) default)) ∧ runs (step (offering (.task 0x3C1 (bufA 1) default))) = true ∧
      phaseTerminal (phaseAt (offering (.task 0x3C1 (bufA 1) default)) 3) = true := ⟨inv_offering _, by decide, by decide⟩
theorem witness_faults_kept :
    (fun s : State => runs (step s) = true ∧ s.faults = ⟨true, true, true, true⟩)
      { offering (.bus .start) with faults := ⟨true, true, true, true⟩ } := by decide
theorem witness_any_step : runs (step (offering (.bus .start))) = true := by decide
theorem witness_memory_changes :
    (nextOf (step (offering (.store 5 7)))).map (fun t => memRead t.mem 5) = some 7 ∧
      memRead (offering (.store 5 7)).mem 5 = 0 ∧
      (nextOf (step (offerNext (.agent (.interrupt 8)) { busy (only (rd 3)) .addressSend 0 0x004 with drRx := 9 }))).map
        (fun t => memRead t.mem 0x20000100) = some 9 := by decide
theorem witness_memory : Memory.wf memA = true := by decide
theorem witness_race :
    (fun s : State => taskMayRun s = true ∧ ⟨0, [wr 2]⟩ ∈ s.loans ∧ wr 2 ∈ [wr 2] ∧
      (wr 2).buf.base.toNat ≤ (0x20000001 : Word).toNat ∧
      (0x20000001 : Word).toNat < (wr 2).buf.base.toNat + (wr 2).buf.len.toNat)
      { calmState with loans := [⟨0, [wr 2]⟩] } ∧ taskMayRun engine = true ∧ engine.loans = [] := by decide
theorem witness_bus_start_stop :
    (fun s : State => s.params.bus = .reference ∧ s.cr1.start = true ∧ s.cr1.stop = false ∧ s.mode = .idle) calmState ∧
      (fun s : State => s.cr1.stop = true ∧ s.mode = .rxDone)
        { calmState with mode := .rxDone, cr1 := { started with stop := true } } ∧
      engine.cr1.start = false ∧ engine.cr1.stop = false := by decide
theorem witness_bus_bytes :
    (fun s : State => s.params.bus = .reference ∧ s.mode = .rx ∧ s.sr1.addr = false ∧ s.sr1.btf = false)
      { engine with mode := .rx } ∧ ({ engine with mode := .addrInFlight 1 } : State).mode = .addrInFlight 1 ∧
      ({ engine with mode := .txInFlight 1 } : State).mode = .txInFlight 1 ∧ engine.mode ≠ .rx := by decide
theorem witness_permissive : State.reset.params.bus = .permissive ∧ engine.params.bus = .reference := by decide

end Sys2Proof.Tests
end

section
/-!
PROOFS. Caller memory read back after a write (rules R12, R50).
-/

namespace Sys2Proof.Machine

/-- In a canonical memory an address below the front cell is listed nowhere. -/
theorem memRead_of_lt_front {m : Memory} {a : Nat} (hm : Memory.wf m = true)
    (hlt : ∀ k b r, m = (k, b) :: r → a < k) : memRead m a = unwritten := by
  induction m with
  | nil => rfl
  | cons c r ih =>
    obtain ⟨k, b⟩ := c
    obtain ⟨-, -, hr, hfront⟩ := (memory_wf_cons k b r).1 hm
    have hak : a < k := hlt k b r rfl
    have hrest : memRead r a = unwritten := ih hr fun k' b' r' h => hak.trans (hfront k' b' r' h)
    simp [memRead, hak.ne', hrest]

/-- A cell set before a rest that does not list its address is read back, also where the cell is left out because it
holds what an unlisted address reads as. -/
theorem memRead_memCons_same {r : Memory} {a : Nat} (v : Byte) (hr : memRead r a = unwritten) :
    memRead (memCons a v r) a = v := by
  unfold memCons
  split
  · rename_i hv
    rw [hr, hv]
  · simp [memRead]

/-- A cell set at the front is not read at another address. -/
theorem memRead_memCons_of_ne {a b : Nat} (v : Byte) (r : Memory) (hba : b ≠ a) :
    memRead (memCons a v r) b = memRead r b := by
  unfold memCons
  split
  · rfl
  · simp [memRead, hba.symm]

/-- In a canonical memory the address just written reads as the value written. -/
theorem memRead_memWrite_same {m : Memory} (a : Nat) (v : Byte) (hm : Memory.wf m = true) :
    memRead (memWrite m a v) a = v := by
  induction m with
  | nil => exact memRead_memCons_same v rfl
  | cons c r ih =>
    obtain ⟨k, b⟩ := c
    obtain ⟨-, -, hr, hfront⟩ := (memory_wf_cons k b r).1 hm
    simp only [memWrite]
    split
    · rename_i hlt
      exact memRead_memCons_same v (memRead_of_lt_front hm (by rintro _ _ _ ⟨⟩; exact hlt))
    · split
      · rename_i heq
        subst heq
        exact memRead_memCons_same v (memRead_of_lt_front hr hfront)
      · rename_i hne
        simp [memRead, Ne.symm hne, ih hr]

/-- A write leaves every other address as it was, whether or not the memory is canonical. -/
theorem memRead_memWrite_of_ne (m : Memory) {a b : Nat} (v : Byte) (hba : b ≠ a) :
    memRead (memWrite m a v) b = memRead m b := by
  induction m with
  | nil => exact memRead_memCons_of_ne v [] hba
  | cons c r ih =>
    obtain ⟨k, x⟩ := c
    simp only [memWrite]
    split
    · exact memRead_memCons_of_ne v _ hba
    · split
      · rename_i heq
        subst heq
        rw [memRead_memCons_of_ne v r hba]
        simp [memRead, hba.symm]
      · simp only [memRead, ih]

/-- Settles O54, by the read-after-write rules of caller memory at the same and at another address. -/
theorem memoryReadsBackWhatWasWritten : Obligations.MemoryReadsBackWhatWasWritten := by
  intro m a v hm
  exact ⟨memRead_memWrite_same a v hm, fun b hba => memRead_memWrite_of_ne m v hba⟩

end Sys2Proof.Machine
end

section
/-!
PROOFS. A step is the step of the waiting offer's agent, and an agent that may act runs what its word decodes to
(rules R6, R59, R71, R74, R112).
-/

namespace Sys2Proof.Machine

/-- The agent's offer that waits first is used up, and its agent steps. -/
theorem step_of_agent {s : State} {m : Move} {rest : List Offer} (h : s.script = .agent m :: rest) :
    step s = runMove m { s with script := rest } := by
  simp only [step, takeOffer, h, runOffer]

/-- A task that may run runs what its request word decodes to. -/
theorem runTask_of_ok {s : State} {w : Word} {wb rb : Buf} {i : Instr} (free : taskMayRun s = true)
    (hd : decodeReq s.params.n .task w wb rb = .ok i) : runTask w wb rb s = exec i s := by
  simp only [runTask, free, hd, if_true]

/-- A task's request word that the decoder rejects is refused by the same name. -/
theorem runTask_of_error {s : State} {w : Word} {wb rb : Buf} {e : DecodeError} (free : taskMayRun s = true)
    (hd : decodeReq s.params.n .task w wb rb = .error e) : runTask w wb rb s = .refused (refusalOf e) := by
  simp only [runTask, free, hd, if_true]

/-- An entry the interrupt mechanism may take runs the handler its word decodes to. -/
theorem runInterrupt_of_ok {s : State} {w : Word} {i : Instr}
    (hd : decodeReq s.params.n .interrupt w default default = .ok i) (enter : mayEnter i s = true) :
    runInterrupt w s = exec i s := by
  simp only [runInterrupt, hd, enter, if_true]

/-- A CMD row that is no NoOp comes from a data entry. -/
theorem decodeCommand_of_decodeCmd {c : CmdWords} {i : Instr} (hd : decodeCmd c = .ok i) (hne : i ≠ .cmdNoop) :
    ∃ d : DataCmd, decodeCommand c = .ok (.data d) ∧ i = (Command.data d).instr := by
  unfold decodeCmd at hd
  split at hd
  · rename_i k hk
    cases hd
    cases k with
    | noop => exact absurd rfl hne
    | data d => exact ⟨d, hk, rfl⟩
  · cases hd

/-- The CMD row of a data entry means the enqueue of that entry alone (log 13). -/
theorem exec_instr_of_data (d : DataCmd) (s : State) :
    exec (Command.data d).instr s = .next (enqueue [d] s) := by
  obtain ⟨dir, addr, buf⟩ := d
  cases dir with
  | write => rfl
  | read => rfl

/-- The raw enqueue port given one data entry enqueues it: the one-entry list is a legal shape. -/
theorem runRawEnqueue_of_data {s : State} {c : CmdWords} {d : DataCmd} (free : taskMayRun s = true)
    (hc : decodeCommand c = .ok (.data d)) : runRawEnqueue [c] s = .next (enqueue [d] s) := by
  simp only [runRawEnqueue, decodeEntries, legalShape, free, hc, if_true]

/-- One entry at the raw enqueue port, other than a NoOp, runs the CMD row it decodes to (log 27). -/
theorem runRawEnqueue_of_ok {s : State} {c : CmdWords} {i : Instr} (free : taskMayRun s = true)
    (hd : decodeCmd c = .ok i) (hne : i ≠ .cmdNoop) : runRawEnqueue [c] s = exec i s := by
  obtain ⟨d, hc, rfl⟩ := decodeCommand_of_decodeCmd hd hne
  rw [runRawEnqueue_of_data free hc, exec_instr_of_data]

/-- Settles O18: the waiting offer is used up by `step_of_agent`, and neither the decoder nor the conditions under
which an agent acts read the offers. -/
theorem stepRunsTheDecodedInstruction : Obligations.StepRunsTheDecodedInstruction := by
  intro s rest
  refine ⟨?task, ?taskRejected, ?entry, ?rawEntry⟩
  case task =>
    intro w wb rb i hs free hd
    rw [step_of_agent hs]
    exact runTask_of_ok free hd
  case taskRejected =>
    intro w wb rb e hs free hd
    rw [step_of_agent hs]
    exact runTask_of_error free hd
  case entry =>
    intro w i hs hd enter
    rw [step_of_agent hs]
    exact runInterrupt_of_ok hd enter
  case rawEntry =>
    intro c i hs free hd hne
    rw [step_of_agent hs]
    exact runRawEnqueue_of_ok free hd hne

end Sys2Proof.Machine
end

section
/-!
PROOFS. What a step leaves behind: the platform bits, the model faults and the form of memory under every step
(`Lasting`), what a handler writes while a transaction is in service (`Working`), and how a transaction ends
(`Resolved`).
-/

namespace Sys2Proof.Safety

open Sys2Proof.Machine

/-! ### Bits of the controller no bus step writes -/

/-- No bus step writes `CR1.PE`. -/
@[simp] theorem busStep_cr1_pe (b : BusMove) (s : State) : (busStep b s).cr1.pe = s.cr1.pe := by
  unfold busStep busPermissive busStart busAddress busTransmit busReceive busStop busInject
  repeat' split
  all_goals rfl

/-- No bus step writes the unused bits of `CR1`. -/
@[simp] theorem busStep_cr1_other (b : BusMove) (s : State) : (busStep b s).cr1.other = s.cr1.other := by
  unfold busStep busPermissive busStart busAddress busTransmit busReceive busStop busInject
  repeat' split
  all_goals rfl

/-- An injected flag is one of the nine. -/
@[simp] theorem sr1Inject_other (i : InjectFlag) (f : Sr1) : (sr1Inject i f).other = f.other := by
  cases i <;> rfl

/-- No bus step writes the unused bits of `SR1`. -/
@[simp] theorem busStep_sr1_other (b : BusMove) (s : State) : (busStep b s).sr1.other = s.sr1.other := by
  unfold busStep busPermissive busStart busAddress busTransmit busReceive busStop busInject
  repeat' split
  all_goals simp [sr1Union]

/-! ### Under every step -/

/-- What lasts over every step of every agent: the parameters and platform bits stay, a model fault once set stays set,
and memory keeps its canonical form (rules R30, R34, R50, R83 to R85). By default each field says that the step does not
write the part it speaks of. -/
structure Lasting (s t : State) : Prop where
  params : t.params = s.params := by rfl
  pe : t.cr1.pe = s.cr1.pe := by rfl
  cr1Other : t.cr1.other = s.cr1.other := by rfl
  cr2 : t.cr2 = s.cr2 := by rfl
  sr2 : t.sr2 = s.sr2 := by rfl
  sr1Other : t.sr1.other = s.sr1.other := by rfl
  rxOverflow : s.faults.rxOverflow = true → t.faults.rxOverflow = true := by exact id
  noopAtHead : s.faults.noopAtHead = true → t.faults.noopAtHead = true := by exact id
  readNotLast : s.faults.readNotLast = true → t.faults.readNotLast = true := by exact id
  bufferRace : s.faults.bufferRace = true → t.faults.bufferRace = true := by exact id
  mem : Memory.wf s.mem = true → Memory.wf t.mem = true := by exact id

theorem Lasting.trans {s u t : State} (h : Lasting s u) (k : Lasting u t) : Lasting s t where
  params := k.params.trans h.params
  pe := k.pe.trans h.pe
  cr1Other := k.cr1Other.trans h.cr1Other
  cr2 := k.cr2.trans h.cr2
  sr2 := k.sr2.trans h.sr2
  sr1Other := k.sr1Other.trans h.sr1Other
  rxOverflow := k.rxOverflow ∘ h.rxOverflow
  noopAtHead := k.noopAtHead ∘ h.noopAtHead
  readNotLast := k.readNotLast ∘ h.readNotLast
  bufferRace := k.bufferRace ∘ h.bufferRace
  mem := k.mem ∘ h.mem

/-- A model fault is set over those that stand (rule R34). -/
theorem lasting_setFault (f : ModelFault) (s : State) : Lasting s (setFault f s) := by
  cases f
  case rxOverflow => exact { rxOverflow := fun _ => rfl }
  case noopAtHead => exact { noopAtHead := fun _ => rfl }
  case readNotLast => exact { readNotLast := fun _ => rfl }
  case bufferRace => exact { bufferRace := fun _ => rfl }

theorem lasting_acceptEnqueue (cs : List DataCmd) (s : State) : Lasting s (acceptEnqueue cs s) := by
  unfold acceptEnqueue
  split
  · exact {}
  · exact {}

theorem lasting_finalizeTo (r : List Command) (s : State) : Lasting s (finalizeTo r s) := by
  unfold finalizeTo chainOrDisarm
  split
  · exact {}
  · exact {}

/-! ### While a transaction is in service -/

/-- `t` is `s` with `head` and `armed` as they were, neither fault of the queue's shape raised, and of the slots at most
the head's written, with a phase that is not terminal (rules R43, R133 to R138). -/
structure Working (s t : State) : Prop extends Lasting s t where
  head : t.head = s.head := by rfl
  armed : t.armed = s.armed := by rfl
  noNoop : t.faults.noopAtHead = s.faults.noopAtHead := by rfl
  noRead : t.faults.readNotLast = s.faults.readNotLast := by rfl
  slots : t.slots = s.slots ∨ ∃ p, phaseTerminal p = false ∧ t.slots = s.slots.set s.head p := by exact .inl rfl

theorem Working.trans {s u t : State} (h : Working s u) (k : Working u t) : Working s t where
  toLasting := h.toLasting.trans k.toLasting
  head := k.head.trans h.head
  armed := k.armed.trans h.armed
  noNoop := k.noNoop.trans h.noNoop
  noRead := k.noRead.trans h.noRead
  slots := by
    obtain hk | ⟨q, hq, hk⟩ := k.slots
    · rw [hk]
      exact h.slots
    · refine .inr ⟨q, hq, ?_⟩
      obtain hs | ⟨p, -, hs⟩ := h.slots
      · rw [hk, hs, h.head]
      · rw [hk, hs, h.head, List.set_set]

theorem working_setHeadPhase {p : Phase} (hp : phaseTerminal p = false) (s : State) :
    Working s (setHeadPhase p s) where
  slots := .inr ⟨p, hp, rfl⟩

theorem working_clearErr (k : ErCase) (s : State) : Working s (clearErr k s) := by
  cases k <;> exact {}

theorem working_clearTopEvent (s : State) : Working s (clearTopEvent s) := by
  unfold clearTopEvent
  repeat' split
  all_goals exact {}

/-- Storing the received byte at an address keeps the form of memory. -/
theorem working_storeReceived {c : DataCmd} {s : State} (ha : isAddr (bufAddr c.buf s.cursor) = true) :
    Working s (storeReceived c s) where
  mem := memWrite_wf ha

theorem working_beginReceive (s : State) : Working s (beginReceive s) := by
  unfold beginReceive
  split
  · exact Working.trans {} (working_setHeadPhase (p := .byteProcessing) rfl (clearBtf s))
  · exact {}

theorem working_nackLast (c : DataCmd) (s : State) : Working s (nackLast c s) := by
  unfold nackLast
  split
  · exact Working.trans {} (working_setHeadPhase (p := .lastByte) rfl (requestStop (dropAck s)))
  · exact {}

theorem working_beginStopWait (s : State) : Working s (beginStopWait s) := {}

/-- The bus agent writes no engine state (rule R200). -/
theorem working_busStep (b : BusMove) (s : State) : Working s (busStep b s) := by
  constructor
  case toLasting => constructor <;> simp
  all_goals simp

/-! ### The end of a transaction -/

/-- `Bus` and `Busy` are never stored (rule R232). -/
def Storable (p : Phase) : Prop := p ≠ .fail .bus ∧ p ≠ .fail .busy

theorem storable_of_not_terminal {p : Phase} (h : phaseTerminal p = false) : Storable p := by
  cases p <;> simp_all [Storable, phaseTerminal]

/-- Finalize stores an Error only where one stands. -/
theorem storable_finalPhase {p : Phase} (h : Storable p) : Storable (finalPhase p) := by
  unfold finalPhase
  split
  · exact h
  · simp [Storable]

/-- The head transaction, whose NoOp stands before `r`, is over: its verdict is in the head slot, `head` has advanced
and the next transaction, if any, is in service (rules R141, R180). -/
structure Resolved (s : State) (r : List Command) (t : State) : Prop extends Lasting s t where
  group : s.queue.dropWhile (fun k => !isNoop k) = .noop :: r
  queue : t.queue = r
  cursor : t.cursor = 0
  waitStop : t.waitStop = false
  head : t.head = (s.head + 1) % s.params.n
  armed : t.armed = if r.isEmpty then false else s.armed
  noNoop : t.faults.noopAtHead = s.faults.noopAtHead
  noRead : t.faults.readNotLast = s.faults.readNotLast
  slots : ∃ v, t.slots = s.slots.set s.head v ∧ (Storable (headPhase s) → Storable v)

/-- Writing the head slot with its own phase changes nothing, also where `head` names no slot. -/
theorem slots_set_headPhase (s : State) : s.slots.set s.head (headPhase s) = s.slots := by
  by_cases hl : s.head < s.slots.length
  · simp [headPhase, phaseAt, List.getD_eq_getElem?_getD, hl]
  · exact List.set_eq_of_length_le (Nat.le_of_not_lt hl)

/-- What the transaction in service leaves in the head slot. -/
theorem Working.slots_set {s t : State} (h : Working s t) :
    ∃ p, t.slots = s.slots.set s.head p ∧ (Storable (headPhase s) → Storable p) := by
  obtain hs | ⟨p, hp, hs⟩ := h.slots
  · exact ⟨headPhase s, hs.trans (slots_set_headPhase s).symm, id⟩
  · exact ⟨p, hs, fun _ => storable_of_not_terminal hp⟩

/-- Finalize with `r` behind the NoOp resolves the head transaction, if what ran before it kept to the transaction in
service, but for the phase `p` in the head slot, which may be a verdict. -/
theorem resolved_finalizeTo {s u : State} {r : List Command} {p : Phase} (work : Working s { u with slots := s.slots })
    (group : s.queue.dropWhile (fun k => !isNoop k) = .noop :: r) (cursor : u.cursor = 0) (wait : u.waitStop = false)
    (slots : u.slots = s.slots.set s.head p) (storable : Storable (headPhase s) → Storable p) :
    Resolved s r (finalizeTo r u) := by
  obtain ⟨lasting, head, armed, noNoop, noRead, -⟩ := work
  have hu : Lasting s u := { lasting with }
  have hhead : u.head = s.head := head
  have hphase : headPhase u = (s.slots.set s.head p).getD s.head .begin := by rw [headPhase, phaseAt, hhead, slots]
  exact {
    toLasting := hu.trans (lasting_finalizeTo r u)
    group := group
    queue := finalizeTo_queue r u
    cursor := (finalizeTo_cursor r u).trans cursor
    waitStop := (finalizeTo_waitStop r u).trans wait
    head := by rw [finalizeTo_head, hhead, hu.params]
    armed := by rw [finalizeTo_armed, show u.armed = s.armed from armed]
    noNoop := by rw [finalizeTo_faults]; exact noNoop
    noRead := by rw [finalizeTo_faults]; exact noRead
    slots := by
      refine ⟨finalPhase p, ?_, fun h => storable_finalPhase (storable h)⟩
      rw [finalizeTo_slots, hphase, hhead, slots, set_finalPhase] }

end Sys2Proof.Safety
end

section
/-!
PROOFS. Everything one step can do to the engine, in six shapes (rules R6, R100 to R102, R133 to R141, R170 to R181):
each whole-machine rule is proved by cases over `Effect`.
-/

namespace Sys2Proof.Safety

open Sys2Proof.Machine

/-- What a step that gave a next state did to queue, cursor, slots, `head`, `armed` and `wait_stop`. -/
inductive Effect (s : State) : State → Prop where
  /-- Nothing. -/
  | outside {t : State} (work : Working s t) (queue : t.queue = s.queue) (cursor : t.cursor = s.cursor)
      (wait : t.waitStop = s.waitStop) (slots : t.slots = s.slots) : Effect s t
  /-- The head data Command goes on (rules R133 to R138). -/
  | served {t : State} {c : DataCmd} {r : List Command} (front : s.queue = .data c :: r) (work : Working s t)
      (queue : t.queue = s.queue) (cursor : t.cursor = s.cursor ∨ t.cursor ≤ c.buf.len.toNat)
      (wait : t.waitStop = true → c.dir = .read) : Effect s t
  /-- The head Write is over and the next Command of its transaction starts (rule R140). -/
  | advanced {t : State} {c d : DataCmd} {r : List Command} (front : s.queue = .data c :: .data d :: r)
      (dir : c.dir = .write) (work : Working s t) (queue : t.queue = .data d :: r) (cursor : t.cursor = 0)
      (wait : t.waitStop = false) : Effect s t
  /-- The head transaction is over (rules R141, R180). -/
  | resolved {t : State} {r : List Command} (ended : Resolved s r t) : Effect s t
  /-- A transaction is accepted (rules R100 to R103). -/
  | accepted (cs : List DataCmd) (legal : LegalCmds cs) (room : s.queue.length + cs.length + 1 ≤ s.params.n)
      (wait : s.waitStop = false) : Effect s (acceptEnqueue cs s)
  /-- A queue out of shape was found, a model fault (rules R140, R146). -/
  | broken {t : State} (lasting : Lasting s t) (shape : wellGrouped s.queue = false)
      (queue : ∃ k, t.queue = s.queue.drop k) : Effect s t

/-- A NoOp at the head is out of shape, and the model fault (rule R146). -/
theorem effect_noopAtHead {s : State} {r : List Command} (front : s.queue = .noop :: r) :
    Effect s (setFault .noopAtHead s) :=
  .broken (lasting_setFault .noopAtHead s) (by rw [front]; rfl) ⟨0, rfl⟩

/-- A Read with a data Command behind it is out of shape (rule R36). -/
theorem wellGrouped_read_data {c d : DataCmd} {r : List Command} (h : c.dir = .read) :
    wellGrouped (.data c :: .data d :: r) = false := by
  unfold wellGrouped
  split <;> simp_all

/-! ### A handler on the head data Command -/

section

variable {s u t : State} {c : DataCmd} {r : List Command}

/-- EndCommand, after what ran before it on the head Command. -/
theorem effect_endCommand {b : Bool} (front : s.queue = .data c :: r) (work : Working s u) (queue : u.queue = s.queue)
    (wait : u.waitStop = false) (h : endCommand c b u = .next t) : Effect s t := by
  have htail : u.queue.tail = r := by rw [queue, front, List.tail_cons]
  rw [← htail] at front
  rcases endCommand_next h with ⟨r', hr, rfl⟩ | ⟨d, r', hr, hdir, rfl⟩ | ⟨d, r', hr, hdir, rfl⟩
  case inl =>
    obtain ⟨p, hp, hstore⟩ := work.slots_set
    have hgroup : s.queue.dropWhile (fun k => !isNoop k) = .noop :: r' := by simp [front, hr, isNoop]
    cases b with
    | true => exact .resolved (resolved_finalizeTo { work with slots := .inl rfl } hgroup rfl wait hp hstore)
    | false => exact .resolved (resolved_finalizeTo { work with slots := .inl rfl } hgroup rfl wait hp hstore)
  case inr.inl =>
    have hpop : Lasting s (popCommand u) := work.toLasting.trans {}
    exact .broken (hpop.trans (lasting_setFault _ _)) (by rw [front, hr, wellGrouped_read_data hdir])
      ⟨1, by rw [setFault_queue, popCommand_queue, queue, List.drop_one]⟩
  case inr.inr =>
    have hpop : Working u (popCommand u) := {}
    have hbegin := working_setHeadPhase (p := .begin) rfl (popCommand u)
    exact .advanced (front.trans (by rw [hr])) hdir ((work.trans (hpop.trans hbegin)).trans {}) hr rfl wait

/-- FailHead, after what ran before it (rules R179, R180). -/
theorem effect_failHead {e : BusError} (work : Working s u) (queue : u.queue = s.queue) (slots : u.slots = s.slots)
    (wait : u.waitStop = false) (he : Storable (.fail e)) (h : failHead e u = .next t) : Effect s t := by
  obtain ⟨r, hr, rfl⟩ := failHead_next h
  refine .resolved (resolved_finalizeTo (p := .fail e) { work with slots := .inl rfl } ?_ rfl wait ?_ fun _ => he)
  · rw [← queue, hr]
  · rw [← slots, ← work.head]
    rfl

/-- Transmitting the next byte, or ending the Write (rules R134, R136). -/
theorem effect_transmitNext (front : s.queue = .data c :: r) (work : Working s u) (queue : u.queue = s.queue)
    (wait : u.waitStop = false) (h : transmitNext c u = .next t) : Effect s t := by
  rcases transmitNext_next h with ⟨hlt, -, rfl⟩ | ⟨-, hend⟩
  · exact .served front (work.trans {}) queue (.inr hlt) fun hw => absurd (wait.symm.trans hw) Bool.false_ne_true
  · exact effect_endCommand front work queue wait hend

/-- Capturing a received byte, and what follows the capture (rules R137, R138, R145). -/
theorem effect_capture {f : State → State} (front : s.queue = .data c :: r) (dir : c.dir = .read) (work : Working s u)
    (queue : u.queue = s.queue) (cursor : u.cursor = s.cursor) (after : ∀ v, Working v (f v))
    (afterQueue : ∀ v, (f v).queue = v.queue) (afterCursor : ∀ v, (f v).cursor = v.cursor)
    (h : capture c f u = .next t) : Effect s t := by
  rcases capture_next h with ⟨-, rfl⟩ | ⟨hlt, ha, rfl⟩
  · have hfault : Working u (setFault .rxOverflow u) := { rxOverflow := fun _ => rfl }
    exact .served front (work.trans hfault) queue (.inl cursor) fun _ => dir
  · refine .served front ((work.trans (working_storeReceived ha)).trans (after _)) ?_ (.inr ?_) fun _ => dir
    · rw [afterQueue, storeReceived_queue, queue]
    · rw [afterCursor, storeReceived_cursor]
      exact hlt

end

@[simp] theorem beginReceive_queue (s : State) : (beginReceive s).queue = s.queue := by
  unfold beginReceive; split <;> rfl
@[simp] theorem beginReceive_cursor (s : State) : (beginReceive s).cursor = s.cursor := by
  unfold beginReceive; split <;> rfl
@[simp] theorem nackLast_queue (c : DataCmd) (s : State) : (nackLast c s).queue = s.queue := by
  unfold nackLast; split <;> rfl
@[simp] theorem nackLast_cursor (c : DataCmd) (s : State) : (nackLast c s).cursor = s.cursor := by
  unfold nackLast; split <;> rfl

/-! ### The handlers -/

section

variable {s t : State} {c : DataCmd} {r : List Command}

/-- A case that leaves queue, cursor and `wait_stop` (EV_SB, EV_ADDR_READ, EV_NONE) serves the head Command. -/
theorem effect_working (front : s.queue = .data c :: r) (idle : s.waitStop = false) (work : Working s t)
    (queue : t.queue = s.queue) (cursor : t.cursor = s.cursor) (wait : t.waitStop = s.waitStop) : Effect s t :=
  .served front work queue (.inl cursor) fun hw => by rw [wait, idle] at hw; cases hw

/-- A case of the EV handler on the head data Command. -/
theorem effect_runEvCase (front : s.queue = .data c :: r) (idle : s.waitStop = false) (k : EvCase)
    (h : runEvCase k s = .next t) : Effect s t := by
  have hsend : Working s (clearAddr (setHeadPhase .addressSend s)) := (working_setHeadPhase rfl s).trans {}
  have hbyte : Working s (clearBtf (setHeadPhase .byteProcessing s)) := (working_setHeadPhase rfl s).trans {}
  cases k
  case sb =>
    simp only [runEvCase, execEvSb, onHead_data front] at h
    cases h
    exact effect_working front idle ((working_setHeadPhase (p := .startGenerated) rfl s).trans {}) rfl rfl rfl
  case addrWrite =>
    simp only [runEvCase, execEvAddrWrite, onHead_data front] at h
    split at h
    · exact effect_transmitNext front hsend rfl idle h
    · cases h
  case addrRead =>
    simp only [runEvCase, execEvAddrRead, onHead_data front] at h
    split at h
    · cases h
    · split at h
      · exact effect_endCommand front hsend rfl idle h
      · cases h
        exact effect_working front idle hsend rfl rfl rfl
  case btfWrite =>
    simp only [runEvCase, execEvBtfWrite, onHead_data front] at h
    split at h
    · exact effect_transmitNext front hbyte rfl idle h
    · cases h
  case btfRead =>
    simp only [runEvCase, execEvBtfRead, onHead_data front] at h
    split at h
    · cases h
    · rename_i dir
      split at h
      · cases h
      · exact effect_capture front dir (working_beginReceive s) (beginReceive_queue s) (beginReceive_cursor s)
          (working_nackLast c) (nackLast_queue c) (nackLast_cursor c) h
  case btfReadLast =>
    simp only [runEvCase, execEvBtfReadLast, onHead_data front] at h
    split at h
    · cases h
    · rename_i dir
      split at h
      · exact effect_capture (u := clearBtf s) front dir {} rfl rfl working_beginStopWait beginStopWait_queue
          beginStopWait_cursor h
      · cases h
  case none =>
    simp only [runEvCase, execEvNone, onHead_data front] at h
    cases h
    exact effect_working front idle {} rfl rfl rfl

/-- One entry of the EV handler (rules R130, R131, R146). -/
theorem effect_execEvIrq (idle : s.waitStop = false) (h : execEvIrq s = .next t) : Effect s t := by
  rcases onHead_next h with ⟨-, rfl⟩ | ⟨r, front, rfl⟩ | ⟨c, r, front, hrun⟩
  · refine .outside (working_clearTopEvent s) ?_ ?_ ?_ ?_
    all_goals (unfold clearTopEvent; repeat' split) <;> rfl
  · exact effect_noopAtHead front
  · exact effect_runEvCase front idle _ hrun

/-- A reported error (rules R170, R179 to R181). -/
theorem effect_reportError {k : ErCase} {e : BusError} (idle : s.waitStop = false) (he : Storable (.fail e))
    (h : reportError k e s = .next t) : Effect s t := by
  rcases reportError_next h with ⟨-, rfl⟩ | ⟨r, front, rfl⟩ | ⟨c, r, -, hfail⟩
  · exact .outside (working_clearErr k s) (by simp) (by simp) (by simp) (by simp)
  · exact effect_noopAtHead front
  · exact effect_failHead (working_clearErr k s) (by simp) (by simp) (by simpa using idle) he hfail

/-- One entry of the ER handler (rule R170). -/
theorem effect_execErIrq (idle : s.waitStop = false) (h : execErIrq s = .next t) : Effect s t := by
  unfold execErIrq at h
  split at h
  · exact effect_reportError idle (by simp [Storable]) h
  · exact effect_reportError idle (by simp [Storable]) h
  · exact effect_reportError idle (by simp [Storable]) h
  · exact effect_reportError idle (by simp [Storable]) h
  · exact effect_reportError idle (by simp [Storable]) h
  · cases h
    exact .outside (working_clearErr .berr s) rfl rfl rfl rfl
  · cases h
    exact .outside {} rfl rfl rfl rfl

/-- The end of the STOP wait (rule R139). -/
theorem effect_endStopWait (h : endStopWait s = .next t) : Effect s t := by
  unfold endStopWait at h
  split at h
  · cases h
  · rename_i r front
    cases h
    exact effect_noopAtHead front
  · rename_i c r front
    exact effect_endCommand (u := { s with waitStop := false }) front {} rfl rfl h

end

/-! ### Every step -/

/-- While the EV handler waits for the STOP no task runs (rule R241). -/
theorem waitStop_of_taskMayRun {s : State} (h : taskMayRun s = true) : s.waitStop = false := by
  simp only [taskMayRun, Bool.and_eq_true, Bool.not_eq_true'] at h
  exact h.1

/-- An enqueue, accepted or turned away (rules R100, R101). -/
theorem effect_enqueue {s : State} {cs : List DataCmd} (legal : LegalCmds cs) (wait : s.waitStop = false) :
    Effect s (enqueue cs s) := by
  obtain ⟨-, h⟩ | ⟨room, h⟩ := enqueue_cases cs s
  · rw [h]
    exact .outside {} rfl rfl rfl rfl
  · rw [h]
    exact .accepted cs legal room wait

/-- Returning a Poll leaves the engine as it was. -/
theorem effect_returnPoll (slot : Nat) (bs : List Hold) (s : State) :
    Effect s { returnPoll slot s with blocked := bs } := by
  obtain ⟨ls, -, h⟩ := returnPoll_eq slot s
  rw [h]
  exact .outside {} rfl rfl rfl rfl

/-- What one agent's step did is one of the six shapes. -/
theorem Effect.of_did {o : Offer} {s t : State} (h : Did o s t) : Effect s t := by
  cases h with
  | nothing => exact .outside {} rfl rfl rfl rfl
  | enqueued cs legal own free =>
    exact effect_enqueue legal (waitStop_of_taskMayRun free)
  | polled slot => exact effect_returnPoll slot _ s
  | held => exact .outside {} rfl rfl rfl rfl
  | resumed k h => exact effect_returnPoll h.slot _ s
  | raced => exact .outside { bufferRace := fun _ => rfl } rfl rfl rfl rfl
  | stored a b => exact .outside { mem := memWrite_wf (decide_eq_true a.isLt) } rfl rfl rfl rfl
  | critical => exact .outside {} rfl rfl rfl rfl
  | raised => exact .outside {} rfl rfl rfl rfl
  | event _ idle _ ran => exact effect_execEvIrq idle ran
  | error _ idle _ ran => exact effect_execErIrq idle ran
  | stopped _ _ _ ran => exact effect_endStopWait ran
  | bus b => exact .outside (working_busStep b s) (by simp) (by simp) (by simp) (by simp)

/-- What one step did, the offer it used up apart. -/
theorem step_effect {s t : State} (h : step s = .next t) : ∃ sc tk, Effect { s with script := sc, tick := tk } t := by
  obtain ⟨sc, tk, did⟩ := step_did h
  exact ⟨sc, tk, .of_did did⟩

end Sys2Proof.Safety
end

section
/-!
PROOFS. The whole-machine rules that need no invariant: what lasts over every step, and the queue as a FIFO
(rules R22, R30, R34, R272).
-/

namespace Sys2Proof.Safety

open Sys2Proof.Machine

/-- No step writes the platform bits, clears a model fault, or breaks the form of memory. -/
theorem Effect.lasting {s t : State} (h : Effect s t) : Lasting s t := by
  cases h with
  | outside work => exact work.toLasting
  | served _ work => exact work.toLasting
  | advanced _ _ work => exact work.toLasting
  | resolved ended => exact ended.toLasting
  | accepted cs => exact lasting_acceptEnqueue cs s
  | broken lasting => exact lasting

/-- What lasts over the step of one agent lasts over a step of the machine: the offers are none of it. -/
theorem step_lasting {s t : State} (h : step s = .next t) : Lasting s t := by
  obtain ⟨sc, tk, effect⟩ := step_effect h
  exact Lasting.trans {} effect.lasting

/-- Settles O50: whatever a step does, it sets model faults only. -/
theorem modelFaultsAreNeverCleared : Obligations.ModelFaultsAreNeverCleared := by
  intro s t h
  have lasting := step_lasting h
  exact ⟨lasting.rxOverflow, lasting.noopAtHead, lasting.readNotLast, lasting.bufferRace⟩

/-- Settles O52: whatever a step does, the platform bits last. -/
theorem platformBitsNeverChange : Obligations.PlatformBitsNeverChange := by
  intro s t h
  have lasting := step_lasting h
  exact ⟨lasting.params, lasting.pe, lasting.cr1Other, lasting.cr2, lasting.sr2, lasting.sr1Other⟩

@[simp] theorem acceptEnqueue_queue (cs : List DataCmd) (s : State) :
    (acceptEnqueue cs s).queue = s.queue ++ group cs := by
  unfold acceptEnqueue
  split <;> rfl

/-- What stands behind a NoOp of the queue is the queue without its front. -/
theorem eq_drop_of_dropWhile {q r : List Command} {p : Command → Bool} (h : q.dropWhile p = .noop :: r) :
    ∃ k, r = q.drop k := by
  have hsuffix : r <:+ q := ((List.suffix_cons .noop r).trans (h ▸ List.dropWhile_suffix p))
  exact ⟨_, List.suffix_iff_eq_drop.1 hsuffix⟩

/-- The queue loses entries at its head or gains entries at its tail. -/
theorem Effect.fifo {s t : State} (h : Effect s t) :
    (∃ k, t.queue = s.queue.drop k) ∨ ∃ ks, t.queue = s.queue ++ ks := by
  cases h with
  | outside _ queue => exact .inl ⟨0, queue⟩
  | served _ _ queue => exact .inl ⟨0, queue⟩
  | advanced front _ _ queue => exact .inl ⟨1, by rw [queue, front, List.drop_one, List.tail_cons]⟩
  | resolved ended => exact .inl (ended.queue ▸ eq_drop_of_dropWhile ended.group)
  | accepted cs => exact .inr ⟨group cs, acceptEnqueue_queue cs s⟩
  | broken _ _ queue => exact .inl queue

/-- Settles O51, by the six shapes of a step. -/
theorem queueIsFifo : Obligations.QueueIsFifo := by
  intro s t h
  obtain ⟨sc, tk, effect⟩ := step_effect h
  exact effect.fifo

end Sys2Proof.Safety
end

section
/-!
PROOFS. The invariants of a sound state: the slot handed out next is free (rules R39, R102), and every step keeps them
(rules R36 to R41).
-/

namespace Sys2Proof.Safety

open Sys2Proof.Machine

/-! ### The next slot -/

/-- Two different places fewer than `n` apart are different modulo `n`. -/
theorem mod_add_ne {a i j n : Nat} (hij : i < j) (hj : j < i + n) : (a + i) % n ≠ (a + j) % n := by
  intro h
  have hdvd : n ∣ (a + j) - (a + i) := (Nat.modEq_iff_dvd' (by omega)).1 h
  have := Nat.le_of_dvd (by omega) hdvd
  omega

/-- A queue of legal shape holds fewer NoOps than entries, if any. -/
theorem noops_lt_length {q : List Command} (h : wellGrouped q = true) (hne : q ≠ []) : noops q < q.length := by
  obtain ⟨ds, r, rfl, legal, -⟩ := wellGrouped_split h hne
  have hr := noops_le_length r
  have hds : 0 < ds.length := by
    obtain ⟨c, rfl⟩ | ⟨c, d, rfl, -⟩ := legal <;> simp
  simp only [noops_append, noops_map_data, noops_cons_noop, List.length_append, List.length_map, List.length_cons]
  omega

/-- Fewer transactions are queued than there are slots. -/
theorem Inv.noops_lt {s : State} (h : Inv s) : noops s.queue < s.params.n := by
  by_cases hne : s.queue = []
  · rw [hne]
    exact Nat.zero_lt_of_lt h.head
  · exact (noops_lt_length h.shape hne).trans_le h.capacity

/-- Settles O25: the places of the queued transactions and the next one lie within `N` of each other. -/
theorem nextSlotIsFree : Obligations.NextSlotIsFree := by
  intro s j h hj
  have := h.noops_lt
  exact mod_add_ne hj (by omega)

end Sys2Proof.Safety
end

section
/-!
PROOFS. Every step keeps the invariants (rules R36 to R41), shape by shape.
-/

namespace Sys2Proof.Safety

open Sys2Proof.Machine

/-! ### Slots after a step -/

/-- Reading a slot after one was written. -/
theorem phaseAt_of_set {s t : State} {i : Nat} {p : Phase} (ht : t.slots = s.slots.set i p) (j : Nat) :
    phaseAt t j = if i = j ∧ i < s.slots.length then p else phaseAt s j :=
  (phaseAt_congr (s := setPhase i p s) ht j).trans (phaseAt_setPhase i j p s)

/-- A write leaves the other slots. -/
theorem phaseAt_of_set_ne {s t : State} {i j : Nat} {p : Phase} (ht : t.slots = s.slots.set i p) (h : i ≠ j) :
    phaseAt t j = phaseAt s j := by
  rw [phaseAt_of_set ht, if_neg fun hij => h hij.1]

/-- A slot that is read after a write holds what was written or what it held. -/
theorem phaseAt_of_set_or {s t : State} {i : Nat} {p : Phase} (ht : t.slots = s.slots.set i p) (j : Nat) :
    phaseAt t j = p ∨ phaseAt t j = phaseAt s j := by
  rw [phaseAt_of_set ht]
  split
  · exact .inl rfl
  · exact .inr rfl

/-- The slots of the transactions behind the head one are not the head's. -/
theorem Inv.behind_ne_head {s : State} (h : Inv s) {j : Nat} (h0 : 0 < j) (hj : j < s.params.n) :
    s.head ≠ (s.head + j) % s.params.n :=
  (mod_advance_ne h.head h0 hj).symm

/-! ### While a transaction is in service -/

/-- A handler at work writes no terminal phase. -/
theorem Working.phaseAt_or {s t : State} (h : Working s t) (i : Nat) :
    phaseTerminal (phaseAt t i) = false ∨ phaseAt t i = phaseAt s i := by
  obtain hs | ⟨p, hp, hs⟩ := h.slots
  · exact .inr (phaseAt_congr hs i)
  · obtain hi | hi := phaseAt_of_set_or hs i
    · exact .inl (hi ▸ hp)
    · exact .inr hi

/-- A handler at work leaves every slot but the head's (rule R43). -/
theorem Working.phaseAt_ne {s t : State} (h : Working s t) {i : Nat} (hi : s.head ≠ i) :
    phaseAt t i = phaseAt s i := by
  obtain hs | ⟨p, -, hs⟩ := h.slots
  · exact phaseAt_congr hs i
  · exact phaseAt_of_set_ne hs hi

theorem Working.length {s t : State} (h : Working s t) : t.slots.length = s.slots.length := by
  obtain hs | ⟨p, -, hs⟩ := h.slots
  · rw [hs]
  · rw [hs, List.length_set]

/-- A handler at work keeps the invariants if its queue is that of `s`, or that of `s` without data Commands of the head
transaction, in legal shape, and cursor and STOP wait suit the Command `c` at the head. -/
theorem Working.inv {s t : State} {ds : List DataCmd} {c : DataCmd} {r : List Command} (h : Inv s)
    (work : Working s t) (before : s.queue = ds.map Command.data ++ .data c :: r) (front : t.queue = .data c :: r)
    (shape : wellGrouped (.data c :: r) = true) (cursor : t.cursor ≤ c.buf.len.toNat)
    (wait : t.waitStop = true → c.dir = .read) : Inv t := by
  have hnoops : noops t.queue = noops s.queue := by rw [before, front, noops_append, noops_map_data, Nat.zero_add]
  exact {
    params := by rw [work.params]; exact h.params
    slots := by rw [work.length, work.params]; exact h.slots
    head := by rw [work.head, work.params]; exact h.head
    shape := by rw [front]; exact shape
    capacity := by
      have := h.capacity
      rw [before, List.length_append] at this
      rw [front, work.params]
      omega
    armed := by
      have hs : s.queue.isEmpty = false := by rw [before]; simp
      rw [work.armed, h.armed, hs, front, List.isEmpty_cons]
    idle := fun hq => by simp [front] at hq
    cursor := by
      intro c' r' hq
      obtain ⟨⟨rfl⟩, rfl⟩ := List.cons_eq_cons.1 (front.symm.trans hq)
      exact cursor
    waiting := fun hw => ⟨c, r, front, wait hw⟩
    queued := by
      intro j hj
      rw [work.head, work.params]
      obtain hopen | hsame := work.phaseAt_or ((s.head + j) % s.params.n)
      · exact hopen
      · rw [hsame]
        exact h.queued j (hnoops ▸ hj)
    fresh := by
      intro j h0 hj
      rw [hnoops] at hj
      rw [work.head, work.params, work.phaseAt_ne (h.behind_ne_head h0 (hj.trans h.noops_lt))]
      exact h.fresh j h0 hj
    errors := by
      intro i
      obtain hopen | hsame := work.phaseAt_or i
      · exact storable_of_not_terminal hopen
      · rw [hsame]
        exact h.errors i
    faults := by rw [work.noNoop, work.noRead]; exact h.faults
    mem := work.mem h.mem }

/-- The head Command goes on. -/
theorem served_inv {s t : State} {c : DataCmd} {r : List Command} (h : Inv s) (front : s.queue = .data c :: r)
    (work : Working s t) (queue : t.queue = s.queue) (cursor : t.cursor = s.cursor ∨ t.cursor ≤ c.buf.len.toNat)
    (wait : t.waitStop = true → c.dir = .read) : Inv t := by
  have hcursor : t.cursor ≤ c.buf.len.toNat := by
    obtain hc | hc := cursor
    · rw [hc]
      exact h.cursor c r front
    · exact hc
  exact work.inv (ds := []) h front (queue.trans front) (front ▸ h.shape) hcursor wait

/-- A Write and the Command behind it in one transaction: the Command alone is a transaction too (rule R36). -/
theorem wellGrouped_tail {c d : DataCmd} {r : List Command} (h : wellGrouped (.data c :: .data d :: r) = true) :
    wellGrouped (.data d :: r) = true := by
  unfold wellGrouped at h
  split at h <;> simp_all [wellGrouped]

/-- The next Command of the head transaction starts. -/
theorem advanced_inv {s t : State} {c d : DataCmd} {r : List Command} (h : Inv s)
    (front : s.queue = .data c :: .data d :: r) (work : Working s t) (queue : t.queue = .data d :: r)
    (cursor : t.cursor = 0) (wait : t.waitStop = false) : Inv t := by
  refine work.inv (ds := [c]) h front queue (wellGrouped_tail (c := c) (front ▸ h.shape)) ?_ ?_
  · rw [cursor]
    exact Nat.zero_le _
  · simp [wait]

/-! ### The end of a transaction -/

/-- A transaction that ends was queued. -/
theorem Resolved.queue_ne_nil {s t : State} {r : List Command} (ended : Resolved s r t) : s.queue ≠ [] := by
  intro hq
  have := ended.group
  simp [hq] at this

/-- The head transaction ends: what is left is the queue behind its NoOp, with its slots. -/
theorem resolved_inv {s t : State} {r : List Command} (h : Inv s) (ended : Resolved s r t) : Inv t := by
  have hne := ended.queue_ne_nil
  obtain ⟨ds, r', hq, -, hshape⟩ := wellGrouped_split h.shape hne
  have hr : r' = r := by
    have := ended.group
    rw [hq, dropWhile_data] at this
    exact (List.cons_eq_cons.1 this).2
  subst hr
  have hnoops : noops s.queue = noops r' + 1 := by simp [hq, noops_map_data]
  have hlt := h.noops_lt
  obtain ⟨v, hv, hstore⟩ := ended.slots
  -- the slot of the `j`-th transaction left was that of the one behind it
  have hbegin : ∀ j, j < noops r' → phaseAt t ((t.head + j) % t.params.n) = .begin := by
    intro j hj
    have hplace : (t.head + j) % t.params.n = (s.head + (j + 1)) % s.params.n := by
      rw [ended.head, ended.params, Nat.mod_add_mod, Nat.add_assoc, Nat.add_comm 1]
    rw [hplace, phaseAt_of_set_ne hv (h.behind_ne_head (by omega) (by omega))]
    exact h.fresh (j + 1) (by omega) (by omega)
  exact {
    params := by rw [ended.params]; exact h.params
    slots := by rw [hv, List.length_set, ended.params]; exact h.slots
    head := by rw [ended.head, ended.params]; exact Nat.mod_lt _ (Nat.zero_lt_of_lt h.head)
    shape := by rw [ended.queue]; exact hshape
    capacity := by
      have := h.capacity
      rw [ended.queue, ended.params]
      simp only [hq, List.length_append, List.length_cons] at this
      omega
    armed := by
      rw [ended.armed, ended.queue, h.armed]
      cases r' <;> simp [hne]
    idle := fun _ => ⟨ended.cursor, ended.waitStop⟩
    cursor := fun c r _ => by simp [ended.cursor]
    waiting := fun hw => by simp [ended.waitStop] at hw
    queued := by
      intro j hj
      rw [ended.queue] at hj
      rw [hbegin j hj]
      rfl
    fresh := by
      intro j _ hj
      rw [ended.queue] at hj
      exact hbegin j hj
    errors := by
      intro i
      obtain hi | hi := phaseAt_of_set_or hv i
      · rw [hi]
        exact hstore (h.errors s.head)
      · rw [hi]
        exact h.errors i
    faults := by rw [ended.noNoop, ended.noRead]; exact h.faults
    mem := ended.mem h.mem }

/-! ### Enqueue -/

@[simp] theorem acceptEnqueue_cursor (cs : List DataCmd) (s : State) : (acceptEnqueue cs s).cursor = s.cursor := by
  unfold acceptEnqueue; split <;> rfl
@[simp] theorem acceptEnqueue_slots (cs : List DataCmd) (s : State) :
    (acceptEnqueue cs s).slots = s.slots.set (nextSlot s) .begin := by
  unfold acceptEnqueue; split <;> rfl
@[simp] theorem acceptEnqueue_head (cs : List DataCmd) (s : State) : (acceptEnqueue cs s).head = s.head := by
  unfold acceptEnqueue; split <;> rfl
@[simp] theorem acceptEnqueue_armed (cs : List DataCmd) (s : State) :
    (acceptEnqueue cs s).armed = if s.queue.isEmpty then true else s.armed := by
  unfold acceptEnqueue; split <;> rfl
@[simp] theorem acceptEnqueue_waitStop (cs : List DataCmd) (s : State) :
    (acceptEnqueue cs s).waitStop = s.waitStop := by
  unfold acceptEnqueue; split <;> rfl
@[simp] theorem acceptEnqueue_faults (cs : List DataCmd) (s : State) : (acceptEnqueue cs s).faults = s.faults := by
  unfold acceptEnqueue; split <;> rfl
@[simp] theorem acceptEnqueue_params (cs : List DataCmd) (s : State) : (acceptEnqueue cs s).params = s.params := by
  unfold acceptEnqueue; split <;> rfl
@[simp] theorem acceptEnqueue_mem (cs : List DataCmd) (s : State) : (acceptEnqueue cs s).mem = s.mem := by
  unfold acceptEnqueue; split <;> rfl
@[simp] theorem acceptEnqueue_results (cs : List DataCmd) (s : State) :
    (acceptEnqueue cs s).results = s.results ++ [.enq (.ok (nextSlot s))] := by
  unfold acceptEnqueue; split <;> rfl

/-- The slot handed out is one of the `N`. -/
theorem Inv.nextSlot_lt {s : State} (h : Inv s) : nextSlot s < s.slots.length := by
  rw [h.slots]
  exact Nat.mod_lt _ (Nat.zero_lt_of_lt h.head)

/-- In a sound state the slot handed out is Begin. -/
theorem phaseAt_acceptEnqueue_nextSlot {s : State} (h : Inv s) (cs : List DataCmd) :
    phaseAt (acceptEnqueue cs s) (nextSlot s) = .begin := by
  rw [phaseAt_of_set (acceptEnqueue_slots cs s), if_pos ⟨rfl, h.nextSlot_lt⟩]

/-- The slots of the queued transactions are not handed out. -/
theorem phaseAt_acceptEnqueue_queued {s : State} (h : Inv s) (cs : List DataCmd) {j : Nat} (hj : j < noops s.queue) :
    phaseAt (acceptEnqueue cs s) ((s.head + j) % s.params.n) = phaseAt s ((s.head + j) % s.params.n) :=
  phaseAt_of_set_ne (acceptEnqueue_slots cs s) (nextSlotIsFree s j h hj).symm

/-- A transaction is accepted into a sound state. -/
theorem acceptEnqueue_inv {s : State} {cs : List DataCmd} (h : Inv s) (legal : LegalCmds cs)
    (room : s.queue.length + cs.length + 1 ≤ s.params.n) (wait : s.waitStop = false) : Inv (acceptEnqueue cs s) where
  params := by rw [acceptEnqueue_params]; exact h.params
  slots := by rw [acceptEnqueue_slots, List.length_set, acceptEnqueue_params]; exact h.slots
  head := by rw [acceptEnqueue_head, acceptEnqueue_params]; exact h.head
  shape := by rw [acceptEnqueue_queue]; exact wellGrouped_append h.shape legal
  capacity := by
    rw [acceptEnqueue_queue, acceptEnqueue_params, List.length_append, length_group]
    exact room
  armed := by
    rw [acceptEnqueue_armed, acceptEnqueue_queue, h.armed]
    cases s.queue <;> simp [group]
  idle := by simp [group]
  cursor := by
    intro c r hq
    rw [acceptEnqueue_queue] at hq
    rw [acceptEnqueue_cursor]
    cases hs : s.queue with
    | nil =>
      rw [(h.idle hs).1]
      exact Nat.zero_le _
    | cons k ks =>
      rw [hs] at hq
      obtain ⟨rfl, -⟩ := List.cons_eq_cons.1 hq
      exact h.cursor c ks hs
  waiting := fun hw => by simp [wait] at hw
  queued := by
    intro j hj
    rw [acceptEnqueue_queue, noops_append, noops_group, Nat.lt_succ_iff_lt_or_eq] at hj
    rw [acceptEnqueue_head, acceptEnqueue_params]
    obtain hlt | rfl := hj
    · rw [phaseAt_acceptEnqueue_queued h cs hlt]
      exact h.queued j hlt
    · rw [show (s.head + noops s.queue) % s.params.n = nextSlot s from rfl, phaseAt_acceptEnqueue_nextSlot h]
      rfl
  fresh := by
    intro j h0 hj
    rw [acceptEnqueue_queue, noops_append, noops_group, Nat.lt_succ_iff_lt_or_eq] at hj
    rw [acceptEnqueue_head, acceptEnqueue_params]
    obtain hlt | rfl := hj
    · rw [phaseAt_acceptEnqueue_queued h cs hlt]
      exact h.fresh j h0 hlt
    · exact phaseAt_acceptEnqueue_nextSlot h cs
  errors := by
    intro i
    obtain hi | hi := phaseAt_of_set_or (acceptEnqueue_slots cs s) i
    · rw [hi]
      exact storable_of_not_terminal rfl
    · rw [hi]
      exact h.errors i
  faults := by rw [acceptEnqueue_faults]; exact h.faults
  mem := by rw [acceptEnqueue_mem]; exact h.mem

/-! ### Every step -/

/-- The six shapes of a step keep the invariants; the last is not met in a sound state. -/
theorem Effect.inv {s t : State} (h : Inv s) (effect : Effect s t) : Inv t := by
  cases effect with
  | outside work queue cursor wait slots =>
    exact inv_congr h work.params slots work.head queue work.armed cursor wait work.noNoop work.noRead (work.mem h.mem)
  | served front work queue cursor wait => exact served_inv h front work queue cursor wait
  | advanced front _ work queue cursor wait => exact advanced_inv h front work queue cursor wait
  | resolved ended => exact resolved_inv h ended
  | accepted cs legal room wait => exact acceptEnqueue_inv h legal room wait
  | broken _ shape => exact nomatch h.shape.symm.trans shape

/-- The invariants do not speak of the offers. -/
theorem inv_offers {s : State} (h : Inv s) (sc : List Offer) (tk : Nat) : Inv { s with script := sc, tick := tk } :=
  inv_congr h rfl rfl rfl rfl rfl rfl rfl rfl rfl h.mem

/-- Settles O14, by the six shapes of a step. -/
theorem stepKeepsTheInvariants : Obligations.StepKeepsTheInvariants := by
  intro s t h hstep
  obtain ⟨sc, tk, effect⟩ := step_effect hstep
  exact effect.inv (inv_offers h sc tk)

end Sys2Proof.Safety
end

section
/-!
PROOFS. Who writes a slot (rules R43, R48, R109).
-/

namespace Sys2Proof.Safety

open Sys2Proof.Machine

/-- Slot `i` after a step from `s` to `t`: as it was, handed out by an enqueue, or the head slot of a queued
transaction. -/
def SlotRule (s t : State) (i : Nat) : Prop :=
  phaseAt t i = phaseAt s i ∨ (t.results = s.results ++ [.enq (.ok i)] ∧ phaseAt t i = .begin) ∨
    (i = s.head ∧ s.queue ≠ [])

/-- A handler on a queued transaction leaves every slot but the head's. -/
theorem slotRule_of_other {s t : State} {i : Nat} (hne : s.queue ≠ [])
    (other : s.head ≠ i → phaseAt t i = phaseAt s i) : SlotRule s t i := by
  by_cases hi : s.head = i
  · exact .inr (.inr ⟨hi.symm, hne⟩)
  · exact .inl (other hi)

/-- An accepted enqueue writes the slot it hands out, and its result names that slot. -/
theorem slotRule_acceptEnqueue {s : State} (h : Inv s) (cs : List DataCmd) (i : Nat) :
    SlotRule s (acceptEnqueue cs s) i := by
  by_cases hi : nextSlot s = i
  · subst hi
    exact .inr (.inl ⟨acceptEnqueue_results cs s, phaseAt_acceptEnqueue_nextSlot h cs⟩)
  · exact .inl (phaseAt_of_set_ne (acceptEnqueue_slots cs s) hi)

/-- The six shapes of a step, slot by slot. -/
theorem Effect.slotRule {s t : State} (h : Inv s) (effect : Effect s t) (i : Nat) : SlotRule s t i := by
  cases effect with
  | outside _ _ _ _ slots => exact .inl (phaseAt_congr slots i)
  | served front work => exact slotRule_of_other (by simp [front]) work.phaseAt_ne
  | advanced front _ work => exact slotRule_of_other (by simp [front]) work.phaseAt_ne
  | resolved ended =>
    obtain ⟨v, hv, -⟩ := ended.slots
    exact slotRule_of_other ended.queue_ne_nil (phaseAt_of_set_ne hv)
  | accepted cs => exact slotRule_acceptEnqueue h cs i
  | broken _ shape => exact nomatch h.shape.symm.trans shape

/-- Settles O49: a slot that changes was handed out or is the head's, and the head slot of a queued transaction is not
terminal. -/
theorem onlyAnEnqueueReopensASlot : Obligations.OnlyAnEnqueueReopensASlot := by
  intro s t h hstep i
  obtain ⟨sc, tk, effect⟩ := step_effect hstep
  have hrule : SlotRule s t i := effect.slotRule (inv_offers h sc tk) i
  refine ⟨fun hchanged => hrule.resolve_left hchanged, fun hterminal => ?_⟩
  obtain hsame | hgiven | ⟨rfl, hne⟩ := hrule
  · exact .inl hsame
  · exact .inr hgiven
  · exact nomatch (headPhase_not_terminal h hne).symm.trans hterminal

end Sys2Proof.Safety
end

section
/-!
PROOFS. The machine after reset (rules R47, R202, R203, R270).
-/

namespace Sys2Proof.Safety

open Sys2Proof.Machine

/-- The invariants hold after reset: no transaction is queued, so those that speak of one say nothing. -/
theorem inv_resetWith {p : Params} (hp : p.wf = true) : Inv (State.resetWith p) where
  params := hp
  slots := List.length_replicate
  head := by
    simp only [Params.wf, Bool.and_eq_true, decide_eq_true_eq] at hp
    obtain ⟨⟨hlow, -⟩, -⟩ := hp
    exact Nat.zero_lt_of_lt hlow
  shape := rfl
  capacity := Nat.zero_le _
  armed := rfl
  idle := fun _ => ⟨rfl, rfl⟩
  cursor := fun _ _ hq => nomatch hq
  waiting := fun hw => nomatch hw
  queued := fun j hj => absurd hj (Nat.not_lt_zero j)
  fresh := fun j _ hj => absurd hj (Nat.not_lt_zero j)
  errors := by
    intro i
    rw [phaseAt_resetWith]
    exact storable_of_not_terminal rfl
  faults := ⟨rfl, rfl⟩
  mem := resetWith_mem_wf p

/-- The reference bus is calm after reset, with nothing on the wire. -/
theorem calm_resetWith {p : Params} (hp : p.wf = true) (hbus : p.bus = .reference) : Calm (State.resetWith p) where
  inv := inv_resetWith hp
  reference := hbus
  reads := fun _ hc => nomatch hc
  noInjected := rfl
  noOverflow := rfl
  onHead := fun _ _ hq => nomatch hq
  onIdle := fun _ => ⟨rfl, rfl, rfl, rfl, rfl, rfl⟩

/-- Settles O12: the values of `State.resetWith`, slot by slot for the Protocol States. -/
theorem resetLeavesTheSpecsValues : Obligations.ResetLeavesTheSpecsValues := by
  intro p
  exact ⟨rfl, rfl, List.length_replicate, phaseAt_resetWith p, rfl, rfl, rfl, rfl, rfl, rfl, rfl, rfl, rfl, rfl, rfl,
    rfl⟩

/-- Settles O13, by the two lemmas on the machine after reset. -/
theorem resetIsSound : Obligations.ResetIsSound :=
  fun _ hp => ⟨inv_resetWith hp, calm_resetWith hp⟩

end Sys2Proof.Safety
end

section
/-!
PROOFS. Who writes caller memory (rules R50, R51, R56): what every part of a step does to it (`MemEffect`), and the
races of the tasks' own accesses.
-/

namespace Sys2Proof.Safety

open Sys2Proof.Machine

/-! ### Operations that leave memory as it was -/

@[simp] theorem clearTopEvent_mem (s : State) : (clearTopEvent s).mem = s.mem := by
  unfold clearTopEvent
  repeat' split
  all_goals rfl

@[simp] theorem beginReceive_mem (s : State) : (beginReceive s).mem = s.mem := by
  unfold beginReceive; split <;> rfl
@[simp] theorem nackLast_mem (c : DataCmd) (s : State) : (nackLast c s).mem = s.mem := by
  unfold nackLast; split <;> rfl
@[simp] theorem returnPoll_mem (slot : Nat) (s : State) : (returnPoll slot s).mem = s.mem := by
  obtain ⟨ls, -, h⟩ := returnPoll_eq slot s
  rw [h]
@[simp] theorem enqueue_mem (cs : List DataCmd) (s : State) : (enqueue cs s).mem = s.mem := by
  obtain ⟨-, h⟩ | ⟨-, h⟩ := enqueue_cases cs s
  · rw [h, giveResult_mem]
  · rw [h, acceptEnqueue_mem]

section

variable {s t : State} {c : DataCmd} {r : List Command}

/-- However a Command ends, memory stays. -/
theorem endCommand_mem {b : Bool} (h : endCommand c b s = .next t) : t.mem = s.mem := by
  rcases endCommand_next h with ⟨r, -, rfl⟩ | ⟨d, r, -, -, rfl⟩ | ⟨d, r, -, -, rfl⟩
  · cases b <;> simp
  · simp
  · simp

/-- Transmitting reads memory only. -/
theorem transmitNext_mem (h : transmitNext c s = .next t) : t.mem = s.mem := by
  rcases transmitNext_next h with ⟨-, -, rfl⟩ | ⟨-, hend⟩
  · rfl
  · exact endCommand_mem hend

theorem failHead_mem {e : BusError} (h : failHead e s = .next t) : t.mem = s.mem := by
  obtain ⟨r, -, rfl⟩ := failHead_next h
  simp

theorem reportError_mem {k : ErCase} {e : BusError} (h : reportError k e s = .next t) : t.mem = s.mem := by
  rcases reportError_next h with ⟨-, rfl⟩ | ⟨r, -, rfl⟩ | ⟨c, r, -, hfail⟩
  · simp
  · simp
  · simpa using failHead_mem hfail

/-- The ER handler never writes memory (rules R170 to R182). -/
theorem execErIrq_mem (h : execErIrq s = .next t) : t.mem = s.mem := by
  unfold execErIrq at h
  split at h
  · exact reportError_mem h
  · exact reportError_mem h
  · exact reportError_mem h
  · exact reportError_mem h
  · exact reportError_mem h
  · cases h
    exact clearErr_mem .berr s
  · cases h
    rfl

/-- The end of the STOP wait never writes memory (rule R139). -/
theorem endStopWait_mem (h : endStopWait s = .next t) : t.mem = s.mem := by
  unfold endStopWait at h
  split at h
  · cases h
  · cases h
    rfl
  · exact endCommand_mem (s := { s with waitStop := false }) h

end

/-! ### What a step does to memory -/

/-- What the step of the offer `o` did to caller memory. -/
inductive MemEffect (o : Offer) (s t : State) : Prop where
  /-- Nothing. -/
  | same (mem : t.mem = s.mem)
  /-- A task's own store. -/
  | stored (x : Word) (b : Byte) (own : o = .agent (.store x b)) (mem : t.mem = memWrite s.mem x.toNat b)
  /-- The received byte went to the cursor of the head Read's buffer (rules R137, R138). -/
  | captured (c : DataCmd) (r : List Command) (v : Byte) (front : s.queue = .data c :: r) (dir : c.dir = .read)
      (room : s.cursor < c.buf.len.toNat) (mem : t.mem = memWrite s.mem (bufAddr c.buf s.cursor) v)
      (cursor : t.cursor = s.cursor + 1)

section

variable {o : Offer} {s u t : State} {c : DataCmd} {r : List Command}

/-- A capture writes the byte at the cursor, or nothing where the buffer is full (rule R145), between writes that leave
memory and cursor. -/
theorem memEffect_capture {f : State → State} (front : s.queue = .data c :: r) (dir : c.dir = .read)
    (mem : u.mem = s.mem) (cursor : u.cursor = s.cursor) (afterMem : ∀ v, (f v).mem = v.mem)
    (afterCursor : ∀ v, (f v).cursor = v.cursor) (h : capture c f u = .next t) : MemEffect o s t := by
  rcases capture_next h with ⟨-, rfl⟩ | ⟨room, -, rfl⟩
  · exact .same ((setFault_mem .rxOverflow u).trans mem)
  · refine .captured c r u.drRx front dir (cursor ▸ room) ?_ ?_
    · rw [afterMem, storeReceived_mem, mem, cursor]
    · rw [afterCursor, storeReceived_cursor, cursor]

/-- Of the EV handler's cases only the two that capture a byte write memory. -/
theorem memEffect_runEvCase (front : s.queue = .data c :: r) (k : EvCase) (h : runEvCase k s = .next t) :
    MemEffect o s t := by
  cases k
  case sb =>
    simp only [runEvCase, execEvSb, onHead_data front] at h
    cases h
    exact .same rfl
  case addrWrite =>
    simp only [runEvCase, execEvAddrWrite, onHead_data front] at h
    split at h
    · exact .same (by simpa using transmitNext_mem h)
    · cases h
  case addrRead =>
    simp only [runEvCase, execEvAddrRead, onHead_data front] at h
    split at h
    · cases h
    · split at h
      · exact .same (by simpa using endCommand_mem h)
      · cases h
        exact .same rfl
  case btfWrite =>
    simp only [runEvCase, execEvBtfWrite, onHead_data front] at h
    split at h
    · exact .same (by simpa using transmitNext_mem h)
    · cases h
  case btfRead =>
    simp only [runEvCase, execEvBtfRead, onHead_data front] at h
    split at h
    · cases h
    · rename_i dir
      split at h
      · cases h
      · exact memEffect_capture front dir (beginReceive_mem s) (beginReceive_cursor s) (nackLast_mem c)
          (nackLast_cursor c) h
  case btfReadLast =>
    simp only [runEvCase, execEvBtfReadLast, onHead_data front] at h
    split at h
    · cases h
    · rename_i dir
      split at h
      · exact memEffect_capture front dir (clearBtf_mem s) (clearBtf_cursor s) beginStopWait_mem beginStopWait_cursor h
      · cases h
  case none =>
    simp only [runEvCase, execEvNone, onHead_data front] at h
    cases h
    exact .same rfl

/-- One entry of the EV handler. -/
theorem memEffect_execEvIrq (h : execEvIrq s = .next t) : MemEffect o s t := by
  rcases onHead_next h with ⟨-, rfl⟩ | ⟨r, -, rfl⟩ | ⟨c, r, front, hrun⟩
  · exact .same (clearTopEvent_mem s)
  · exact .same (setFault_mem .noopAtHead s)
  · exact memEffect_runEvCase front _ hrun

/-- The step of one agent writes memory as a task's store or as a capture, or not at all. -/
theorem MemEffect.of_did (h : Did o s t) : MemEffect o s t := by
  cases h with
  | nothing => exact .same rfl
  | enqueued cs => exact .same (enqueue_mem cs s)
  | polled slot => exact .same (returnPoll_mem slot s)
  | held => exact .same rfl
  | resumed k h => exact .same (returnPoll_mem h.slot s)
  | raced => exact .same rfl
  | stored a b own => exact .stored a b own rfl
  | critical => exact .same rfl
  | raised => exact .same rfl
  | event _ _ _ ran => exact memEffect_execEvIrq ran
  | error _ _ _ ran => exact .same (execErIrq_mem ran)
  | stopped _ _ _ ran => exact .same (endStopWait_mem ran)
  | bus b => exact .same (busStep_mem b s)

/-- What a step of the machine did to memory: the offers are no part of it. -/
theorem step_memEffect (h : step s = .next t) : MemEffect (takeOffer s).1 s t := by
  obtain ⟨sc, tk, did⟩ := step_did h
  cases MemEffect.of_did did with
  | same mem => exact .same mem
  | stored x b own mem => exact .stored x b own mem
  | captured c r v front dir room mem cursor => exact .captured c r v front dir room mem cursor

end

/-- A byte that reads differently after a write is the one written. -/
theorem eq_of_memRead_memWrite_ne {m : Memory} {a b : Nat} {v : Byte}
    (h : memRead (memWrite m a v) b ≠ memRead m b) : b = a :=
  of_not_not fun hba => h (memRead_memWrite_of_ne m v hba)

/-- Settles O53, by the three things a step can do to memory: the byte that changed is the one written. -/
theorem onlyReadBuffersAndTasksChangeMemory : Obligations.OnlyReadBuffersAndTasksChangeMemory := by
  intro s t a h changed
  cases step_memEffect h with
  | same mem => exact absurd (congrArg (memRead · a) mem) changed
  | stored x b own mem =>
    rw [mem] at changed
    exact .inl ⟨x, b, own, eq_of_memRead_memWrite_ne changed⟩
  | captured c r v front dir room mem cursor =>
    rw [mem] at changed
    exact .inr ⟨c, r, front, dir, eq_of_memRead_memWrite_ne changed, room, cursor⟩

/-! ### Races (rule R56) -/

/-- The addresses of a buffer are those from its base up to, and without, its end. -/
theorem inBuf_iff (a : Nat) (b : Buf) :
    inBuf a b = true ↔ b.base.toNat ≤ a ∧ a < b.base.toNat + b.len.toNat := by
  simp [inBuf]

/-- A store races exactly when its address is in some buffer in flight. -/
theorem storeRaces_iff (a : Nat) (s : State) :
    storeRaces a s = true ↔ ∃ l ∈ s.loans, ∃ c ∈ l.cmds, inBuf a c.buf = true := by
  simp only [storeRaces, loanedCmds, List.any_flatMap, List.any_eq_true]

/-- A load races exactly when its address is in some Read buffer in flight. -/
theorem loadRaces_iff (a : Nat) (s : State) :
    loadRaces a s = true ↔ ∃ l ∈ s.loans, ∃ c ∈ l.cmds, inBuf a c.buf = true ∧ c.dir = .read := by
  simp only [loadRaces, loanedCmds, List.any_flatMap, List.any_eq_true, Bool.and_eq_true, decide_eq_true_eq]

section

variable {s : State} {a : Word} (free : taskMayRun s = true)
include free

theorem runMove_store_of_race (b : Byte) (race : storeRaces a.toNat s = true) :
    runMove (.store a b) s = .next { s with faults := { s.faults with bufferRace := true } } := by
  simp [runMove, runStore, free, race, setFault]

theorem runMove_store_of_not_race (b : Byte) (noRace : ¬ storeRaces a.toNat s = true) :
    runMove (.store a b) s = .next { s with mem := memWrite s.mem a.toNat b } := by
  simp [runMove, runStore, free, noRace]

theorem runMove_load_of_race (race : loadRaces a.toNat s = true) :
    runMove (.load a) s = .next { s with faults := { s.faults with bufferRace := true } } := by
  simp [runMove, runLoad, free, race, setFault]

theorem runMove_load_of_not_race (noRace : ¬ loadRaces a.toNat s = true) : runMove (.load a) s = .next s := by
  simp [runMove, runLoad, free, noRace]

end

/-- Settles O55, by when a load and a store race and what each then does. -/
theorem touchingABufferInFlightIsARace : Obligations.TouchingABufferInFlightIsARace := by
  intro s l c a b free
  refine ⟨fun hl hc low high => ?_, fun writes => ?_, fun outside => ?_⟩
  · have hin : inBuf a.toNat c.buf = true := (inBuf_iff _ _).2 ⟨low, high⟩
    exact ⟨runMove_store_of_race free b ((storeRaces_iff _ _).2 ⟨l, hl, c, hc, hin⟩),
      fun dir => runMove_load_of_race free ((loadRaces_iff _ _).2 ⟨l, hl, c, hc, hin, dir⟩)⟩
  · refine runMove_load_of_not_race free fun race => ?_
    obtain ⟨l, hl, c, hc, hin, dir⟩ := (loadRaces_iff _ _).1 race
    obtain ⟨low, high⟩ := (inBuf_iff _ _).1 hin
    exact nomatch dir.symm.trans (writes l hl c hc low high)
  · refine runMove_store_of_not_race free b fun race => ?_
    obtain ⟨l, hl, c, hc, hin⟩ := (storeRaces_iff _ _).1 race
    obtain ⟨low, high⟩ := (inBuf_iff _ _).1 hin
    exact outside l hl c hc low high

end Sys2Proof.Safety
end

section
/-!
PROOFS. Bits of the controller's register words (rules R83 to R86): a word with fields put into it, the status word
read back for every usable layout, and the default layout's registers bit by bit.
-/

namespace Sys2Proof.Encoding

open Sys2Proof.Machine

/-! ### One bit put into a word -/

theorem getLsbD_putBit (i : Nat) (b : Bool) (w : Word) (j : Nat) :
    (putBit i b w).getLsbD j = if i = j ∧ i < 32 then b else w.getLsbD j := by
  have hone : (1#32 <<< i).getLsbD j = decide (i = j ∧ i < 32) := by
    rw [← BitVec.twoPow_eq, BitVec.getLsbD_twoPow, Bool.decide_and, Bool.and_comm]
  have hword : w.getLsbD j = true → j < 32 := BitVec.lt_of_getLsbD
  by_cases h : i = j ∧ i < 32
  · obtain ⟨rfl, hi⟩ := h
    cases b <;> simp [putBit, hi]
  · cases b
    · rw [putBit, if_neg Bool.false_ne_true, BitVec.getLsbD_and, BitVec.getLsbD_not, hone]
      simpa [h] using hword
    · rw [putBit, if_pos rfl, BitVec.getLsbD_or, hone]
      simp [h]

theorem putBit_putBit_same (i : Nat) (b c : Bool) (w : Word) : putBit i b (putBit i c w) = putBit i b w := by
  refine BitVec.eq_of_getLsbD_eq fun j _ => ?_
  simp only [getLsbD_putBit]
  split <;> rfl

theorem putBit_comm {i j : Nat} (h : i ≠ j) (b c : Bool) (w : Word) :
    putBit i b (putBit j c w) = putBit j c (putBit i b w) := by
  refine BitVec.eq_of_getLsbD_eq fun k _ => ?_
  by_cases hik : i = k ∧ i < 32
  · have hjk : ¬(j = k ∧ j < 32) := fun hjk => h (hik.1.trans hjk.1.symm)
    simp only [getLsbD_putBit, if_pos hik, if_neg hjk]
  · simp only [getLsbD_putBit, if_neg hik]

/-! ### The fields of a register -/

/-- `w` with every field of `fs`, a bit position and its value, put into it. -/
def putBits (fs : List (Nat × Bool)) (w : Word) : Word := fs.foldr (fun f => putBit f.1 f.2) w

theorem getLsbD_putBits_of_not_mem {fs : List (Nat × Bool)} {j : Nat} (w : Word) (h : j ∉ fs.map Prod.fst) :
    (putBits fs w).getLsbD j = w.getLsbD j := by
  induction fs with
  | nil => rfl
  | cons f fs ih =>
    rw [List.map_cons, List.mem_cons, not_or] at h
    obtain ⟨hf, hfs⟩ := h
    calc (putBit f.1 f.2 (putBits fs w)).getLsbD j
        = (putBits fs w).getLsbD j := by rw [getLsbD_putBit, if_neg fun hj => hf hj.1.symm]
      _ = w.getLsbD j := ih hfs

/-- A bit some field stands at reads as the value on which all fields standing there agree. -/
theorem getLsbD_putBits_of_agree {fs : List (Nat × Bool)} {j : Nat} {b : Bool} (w : Word) (hj : j < 32)
    (h : j ∈ fs.map Prod.fst) (agree : ∀ f ∈ fs, f.1 = j → f.2 = b) : (putBits fs w).getLsbD j = b := by
  induction fs with
  | nil => cases h
  | cons f fs ih =>
    change (putBit f.1 f.2 (putBits fs w)).getLsbD j = b
    rw [getLsbD_putBit]
    split
    · rename_i hf
      exact agree f List.mem_cons_self hf.1
    · rename_i hf
      have hne : j ≠ f.1 := fun e => hf ⟨e.symm, e ▸ hj⟩
      exact ih ((List.mem_cons.1 h).resolve_left hne) fun g hg => agree g (List.mem_cons_of_mem f hg)

/-- With fields at distinct bits of the word, each field reads as its value. -/
theorem getLsbD_putBits_get {fs : List (Nat × Bool)} (w : Word) (nodup : (fs.map Prod.fst).Nodup)
    (inWord : (fs.map Prod.fst).all (· < 32) = true) (k : Fin fs.length) :
    (putBits fs w).getLsbD (fs.get k).1 = (fs.get k).2 := by
  have hk : fs.get k ∈ fs := fs.get_mem k
  have hbit : (fs.get k).1 ∈ fs.map Prod.fst := List.mem_map_of_mem hk
  have h32 : (fs.get k).1 < 32 := by simpa using List.all_eq_true.1 inWord _ hbit
  exact getLsbD_putBits_of_agree w h32 hbit fun _ hg e => congrArg Prod.snd (List.inj_on_of_nodup_map nodup hg hk e)

/-- Fields read out of `w` and put back give `w`, over any word that agrees with `w` off the fields. -/
theorem putBits_of_read {fs : List (Nat × Bool)} {v w : Word} (read : ∀ f ∈ fs, f.2 = w.getLsbD f.1)
    (rest : ∀ j, j ∉ fs.map Prod.fst → v.getLsbD j = w.getLsbD j) : putBits fs v = w := by
  refine BitVec.eq_of_getLsbD_eq fun j hj => ?_
  by_cases h : j ∈ fs.map Prod.fst
  · exact getLsbD_putBits_of_agree v hj h fun f hf e => e ▸ read f hf
  · rw [getLsbD_putBits_of_not_mem v h, rest j h]

/-! ### The status word -/

/-- The nine flags of `SR1` at their bits (rule R85). -/
def sr1Fields (L : RegLayout) (f : Sr1) : List (Nat × Bool) :=
  [(L.sb, f.sb), (L.addr, f.addr), (L.btf, f.btf), (L.timeout, f.timeout), (L.pecerr, f.pecerr), (L.ovr, f.ovr),
    (L.af, f.af), (L.arlo, f.arlo), (L.berr, f.berr)]

theorem sr1ToWord_eq (L : RegLayout) (f : Sr1) : sr1ToWord L f = putBits (sr1Fields L f) f.other := rfl

theorem sr1OfWord_other (L : RegLayout) (w : Word) :
    (sr1OfWord L w).other = putBits (sr1Fields L Sr1.none) w := rfl

/-- In a usable layout each flag of the status word is read back. -/
theorem getLsbD_sr1ToWord {L : RegLayout} (hL : L.wf = true) (f : Sr1) (k : Fin 9) :
    (sr1ToWord L f).getLsbD ((sr1Fields L f).get k).1 = ((sr1Fields L f).get k).2 := by
  simp only [RegLayout.wf, Bool.and_eq_true, decide_eq_true_eq] at hL
  obtain ⟨⟨-, nodup⟩, inWord⟩ := hL
  exact getLsbD_putBits_get (fs := sr1Fields L f) f.other nodup inWord k

/-- In a usable layout the status word gives every flag back, and some other bits. -/
theorem sr1OfWord_sr1ToWord {L : RegLayout} (hL : L.wf = true) (f : Sr1) :
    ∃ o, sr1OfWord L (sr1ToWord L f) = { f with other := o } := by
  have flag := getLsbD_sr1ToWord hL f
  refine ⟨(sr1OfWord L (sr1ToWord L f)).other, ?_⟩
  simp only [sr1OfWord, Sr1.mk.injEq, and_true]
  exact ⟨flag 0, flag 1, flag 2, flag 3, flag 4, flag 5, flag 6, flag 7, flag 8⟩

/-- The status word read into flags and other bits, and written back: no layout loses a bit. -/
theorem sr1ToWord_sr1OfWord (L : RegLayout) (w : Word) : sr1ToWord L (sr1OfWord L w) = w := by
  rw [sr1ToWord_eq]
  refine putBits_of_read (fun x hx => ?_) fun j hj => ?_
  · simp only [sr1Fields, List.mem_cons, List.not_mem_nil, or_false] at hx
    rcases hx with rfl | rfl | rfl | rfl | rfl | rfl | rfl | rfl | rfl <;> rfl
  · rw [sr1OfWord_other]
    exact getLsbD_putBits_of_not_mem w hj

/-- Settles O10, by reading back fields at distinct bits and by writing back what was read. -/
theorem statusWordKeepsEveryFlag : Obligations.StatusWordKeepsEveryFlag := by
  intro L hL
  refine ⟨fun f => ?_, sr1ToWord_sr1OfWord L⟩
  obtain ⟨o, h⟩ := sr1OfWord_sr1ToWord hL f
  simp only [h, and_self]

/-! ### The control words -/

/-- The fields of `CR1` at their bits (rule R83). -/
def cr1Fields (L : RegLayout) (r : Cr1) : List (Nat × Bool) :=
  [(L.pe, r.pe), (L.start, r.start), (L.stop, r.stop), (L.ack, r.ack)]

/-- The fields of `CR2` at their bits (rule R84). -/
def cr2Fields (L : RegLayout) (r : Cr2) : List (Nat × Bool) :=
  [(L.iterren, r.iterren), (L.itevten, r.itevten), (L.itbufen, r.itbufen)]

section

variable {s : State} {L : RegLayout} (layout : s.params.layout = L)
include layout

theorem cr1Word_eq : cr1Word s = putBits (cr1Fields L s.cr1) s.cr1.other := by
  subst layout
  rfl

/-- In a usable layout each field of `CR1` is read back. -/
theorem getLsbD_cr1Word (hL : L.wf = true) (k : Fin 4) :
    (cr1Word s).getLsbD ((cr1Fields L s.cr1).get k).1 = ((cr1Fields L s.cr1).get k).2 := by
  simp only [RegLayout.wf, Bool.and_eq_true, decide_eq_true_eq] at hL
  obtain ⟨⟨⟨⟨⟨nodup, inWord⟩, -⟩, -⟩, -⟩, -⟩ := hL
  rw [cr1Word_eq layout]
  exact getLsbD_putBits_get (fs := cr1Fields L s.cr1) s.cr1.other nodup inWord k

/-- In a usable layout each field of `CR2` is read back. -/
theorem getLsbD_cr2Word (hL : L.wf = true) (k : Fin 3) :
    (cr2Word s).getLsbD ((cr2Fields L s.cr2).get k).1 = ((cr2Fields L s.cr2).get k).2 := by
  simp only [RegLayout.wf, Bool.and_eq_true, decide_eq_true_eq] at hL
  obtain ⟨⟨⟨⟨-, nodup⟩, inWord⟩, -⟩, -⟩ := hL
  subst layout
  exact getLsbD_putBits_get (fs := cr2Fields s.params.layout s.cr2) s.cr2.other nodup inWord k

end

/-! ### The default layout -/

theorem default_wf : RegLayout.default.wf = true := by decide

section

variable {s : State} (hL : s.params.layout = .default)
include hL

theorem sr1Word_default : sr1Word s = sr1ToWord .default s.sr1 := by rw [sr1Word, hL]

theorem regRead_default :
    regRead s 0x00 = some (cr1Word s) ∧ regRead s 0x04 = some (cr2Word s) ∧ regRead s 0x10 = some (drWord s) ∧
      regRead s 0x14 = some (sr1Word s) ∧ regRead s 0x18 = some s.sr2 := by
  simp [regRead, hL, RegLayout.default]

end

/-- The bit of the flag an error case services, in the default layout (rule R85); bit 32 is none of the word's. -/
def errBit : ErCase → Nat
  | .timeout => 14
  | .pecerr => 12
  | .ovr => 11
  | .af => 10
  | .arlo => 9
  | .berr => 8
  | .none => 32

/-- A bit written to 0 passes inward over the other fields. -/
theorem putBit_false_comm {i j : Nat} (h : i ≠ j) (c : Bool) (w : Word) :
    putBit i false (putBit j c w) = putBit j c (putBit i false w) := putBit_comm h false c w

/-- Clearing an error flag writes 0 to its bit of the status word and leaves every other bit. -/
theorem sr1Word_clearErr {s : State} (hL : s.params.layout = .default) (k : ErCase) :
    sr1Word (clearErr k s) = putBit (errBit k) false (sr1Word s) := by
  cases k
  case none =>
    refine (BitVec.eq_of_getLsbD_eq fun j _ => ?_).symm
    simp [getLsbD_putBit, errBit, clearErr]
  all_goals
    simp [sr1Word, hL, sr1ToWord, RegLayout.default, clearErr, errBit, putBit_false_comm, putBit_putBit_same]

/-- Settles O11, register by register: the fields of a word at distinct bits are read back, and clearing an error flag
writes its bit. -/
theorem controllerWordsHaveTheDefaultLayout : Obligations.ControllerWordsHaveTheDefaultLayout := by
  intro s hL
  obtain ⟨cr1, cr2, dr, sr1, sr2⟩ := regRead_default hL
  refine ⟨⟨_, cr1, ?_⟩, ⟨_, cr2, ?_⟩, dr, ⟨_, sr1, ?_⟩, sr2, sr1Word_clearErr hL .timeout,
    sr1Word_clearErr hL .pecerr, sr1Word_clearErr hL .ovr, sr1Word_clearErr hL .af, sr1Word_clearErr hL .arlo, sr1Word_clearErr hL .berr⟩
  · have field := getLsbD_cr1Word hL default_wf
    refine ⟨field 0, field 1, field 2, field 3, fun i h0 h8 h9 h10 => ?_⟩
    rw [cr1Word_eq hL]
    exact getLsbD_putBits_of_not_mem _ (by simp [cr1Fields, RegLayout.default, h0, h8, h9, h10])
  · have field := getLsbD_cr2Word hL default_wf
    exact ⟨field 0, field 1, field 2⟩
  · rw [sr1Word_default hL]
    have flag := getLsbD_sr1ToWord default_wf s.sr1
    exact ⟨flag 0, flag 1, flag 2, flag 8, flag 7, flag 6, flag 5, flag 4, flag 3⟩

end Sys2Proof.Encoding
end

section
/-!
PROOFS. Request words and queue entries: the numbers of a word's fields (rules R71, R76), what each request word decodes
to (rules R72 to R74), and the round trip of a queue entry (rules R76, R77).
-/

namespace Sys2Proof.Encoding

open Sys2Proof.Machine

/-! ### The fields of a word as numbers (rule R11) -/

/-- A byte put above a tag of `k` bits. -/
theorem toNat_shiftLeft_or_ofNat {k t : Nat} (a : Byte) (hk : k ≤ 24) (ht : t < 2 ^ k) :
    (a.setWidth 32 <<< k ||| BitVec.ofNat 32 t).toNat = 2 ^ k * a.toNat + t := by
  have hpow : (2 : Nat) ^ k ≤ 2 ^ 24 := Nat.pow_le_pow_right (by decide) hk
  have ha : a.toNat < 256 := a.isLt
  have hshift : a.toNat <<< k < 2 ^ 32 := by
    rw [Nat.shiftLeft_eq]
    calc a.toNat * 2 ^ k ≤ 255 * 2 ^ 24 := Nat.mul_le_mul (by omega) hpow
      _ < 2 ^ 32 := by decide
  rw [BitVec.toNat_or, BitVec.toNat_shiftLeft, BitVec.toNat_setWidth, BitVec.toNat_ofNat,
    Nat.mod_eq_of_lt (a := a.toNat) (by omega), Nat.mod_eq_of_lt (a := t) (by omega), Nat.mod_eq_of_lt hshift,
    ← Nat.shiftLeft_add_eq_or_of_lt ht, Nat.shiftLeft_eq, Nat.mul_comm]

theorem reqOp_eq (w : Word) : reqOp w = w.toNat % 16 := by
  simp [reqOp]

theorem reqArg_eq (w : Word) : reqArg w = BitVec.ofNat 8 (w.toNat / 16) := by
  simp [reqArg, BitVec.extractLsb', Nat.shiftRight_eq_div_pow]

theorem reqRsv_eq_zero_iff (w : Word) : reqRsv w = 0 ↔ w.toNat < 2 ^ 12 := by
  have hw : w.toNat < 2 ^ 32 := w.isLt
  rw [← BitVec.toNat_inj]
  simp only [reqRsv, BitVec.extractLsb'_toNat, Nat.shiftRight_eq_div_pow, BitVec.ofNat_eq_ofNat, BitVec.toNat_ofNat]
  omega

theorem cmdTag_eq (w : Word) : cmdTag w = w.toNat % 4 := by
  simp [cmdTag]

theorem cmdAddr_eq (w : Word) : cmdAddr w = BitVec.ofNat 8 (w.toNat / 4) := by
  simp [cmdAddr, BitVec.extractLsb', Nat.shiftRight_eq_div_pow]

theorem cmdRsv_eq_zero_iff (w : Word) : cmdRsv w = 0 ↔ w.toNat < 2 ^ 10 := by
  have hw : w.toNat < 2 ^ 32 := w.isLt
  rw [← BitVec.toNat_inj]
  simp only [cmdRsv, BitVec.extractLsb'_toNat, Nat.shiftRight_eq_div_pow, BitVec.ofNat_eq_ofNat, BitVec.toNat_ofNat]
  omega

/-! ### What a request word decodes to (rules R72 to R74) -/

section

variable {n : Nat} {w : Word} {wb rb : Buf}

theorem decodeReq_of_rsv {issuer : Issuer} (h : 2 ^ 12 ≤ w.toNat) :
    decodeReq n issuer w wb rb = .error .reserved :=
  if_pos fun h0 => Nat.not_lt.2 h ((reqRsv_eq_zero_iff w).1 h0)

theorem decodeReq_task_of_lt (h : w.toNat < 2 ^ 12) :
    decodeReq n .task w wb rb = decodeTaskOp n (w.toNat % 16) (BitVec.ofNat 8 (w.toNat / 16)) wb rb := by
  rw [decodeReq, if_neg (not_not.2 ((reqRsv_eq_zero_iff w).2 h)), reqOp_eq, reqArg_eq]

theorem decodeReq_interrupt_of_lt (h : w.toNat < 2 ^ 12) :
    decodeReq n .interrupt w wb rb = decodeHandlerOp (w.toNat % 16) (BitVec.ofNat 8 (w.toNat / 16)) := by
  rw [decodeReq, if_neg (not_not.2 ((reqRsv_eq_zero_iff w).2 h)), reqOp_eq, reqArg_eq]

theorem decodeTaskOp_reserved {op : Nat} {arg : Byte} (h : op = 0 ∨ 6 ≤ op) :
    decodeTaskOp n op arg wb rb = .error .reserved := by
  unfold decodeTaskOp
  split
  iterate 5 omega
  rfl

theorem decodeHandlerOp_reserved {op : Nat} {arg : Byte} (h : (op ≠ 8 ∧ op ≠ 9) ∨ arg ≠ 0) :
    decodeHandlerOp op arg = .error .reserved := by
  unfold decodeHandlerOp
  split
  · exact if_neg (h.resolve_left fun hop => hop.1 rfl)
  · exact if_neg (h.resolve_left fun hop => hop.2 rfl)
  · rfl

/-- A task's word with a nonzero `RSV` or a reserved `OP` is rejected. -/
theorem decodeReq_task_reserved (h : 2 ^ 12 ≤ w.toNat ∨ w.toNat % 16 = 0 ∨ 6 ≤ w.toNat % 16) :
    decodeReq n .task w wb rb = .error .reserved := by
  by_cases hw : w.toNat < 2 ^ 12
  · rw [decodeReq_task_of_lt hw]
    exact decodeTaskOp_reserved (h.resolve_left (Nat.not_le.2 hw))
  · exact decodeReq_of_rsv (Nat.le_of_not_lt hw)

/-- Every word of the interrupt mechanism but the two entries is rejected (log 31). -/
theorem decodeReq_interrupt_reserved (h8 : w.toNat ≠ 8) (h9 : w.toNat ≠ 9) :
    decodeReq n .interrupt w wb rb = .error .reserved := by
  by_cases hw : w.toNat < 2 ^ 12
  · rw [decodeReq_interrupt_of_lt hw]
    refine decodeHandlerOp_reserved (or_iff_not_imp_right.2 fun harg => ?_)
    have hnum : w.toNat / 16 % 256 = 0 := by simpa using congrArg BitVec.toNat (not_not.1 harg)
    omega
  · exact decodeReq_of_rsv (Nat.le_of_not_lt hw)

end

/-- Settles O2, by the operation and the argument of the word as numbers. -/
theorem requestWordFieldsDecode : Obligations.RequestWordFieldsDecode := by
  intro n w wb rb hw
  have harg : (BitVec.ofNat 8 (w.toNat / 16)).toNat = w.toNat / 16 := by
    rw [BitVec.toNat_ofNat, Nat.mod_eq_of_lt (by omega)]
  have task := decodeReq_task_of_lt (n := n) (wb := wb) (rb := rb) hw
  have entry := decodeReq_interrupt_of_lt (n := n) (wb := wb) (rb := rb) hw
  refine ⟨fun h => ?write, fun h => ?read, fun h => ?writeRead, fun h => ?ready, fun h => ?block,
    fun h => decodeReq_task_reserved (.inr h), fun h => ?ev, fun h => ?er,
    fun h => decodeReq_interrupt_reserved h.1 h.2⟩
  case write | read | writeRead => rw [task, h]; rfl
  case ready | block => rw [task, h, ← harg, BitVec.ofNat_toNat, BitVec.setWidth_eq]; rfl
  case ev | er => rw [entry, h]; rfl

/-- A word of the interrupt mechanism that the decoder rejects is refused by the same name. -/
theorem runInterrupt_of_error {s : State} {w : Word} {e : DecodeError}
    (hd : decodeReq s.params.n .interrupt w default default = .error e) :
    runInterrupt w s = .refused (refusalOf e) := by
  simp only [runInterrupt, hd]

/-- Settles O3: what the decoder rejects as reserved is refused as reserved. -/
theorem reservedRequestsAreRefused : Obligations.ReservedRequestsAreRefused := fun _ _ _ _ =>
  ⟨fun free h => runTask_of_error free (decodeReq_task_reserved h),
    fun h8 h9 => runInterrupt_of_error (decodeReq_interrupt_reserved h8 h9)⟩

/-! ### Queue entries (rules R76, R77) -/

theorem encodeCommand_write_w0 (a : Byte) (b : Buf) :
    (encodeCommand (.data ⟨.write, a, b⟩)).w0.toNat = 4 * a.toNat + 1 :=
  toNat_shiftLeft_or_ofNat (k := 2) a (by decide) (by decide)

theorem encodeCommand_read_w0 (a : Byte) (b : Buf) :
    (encodeCommand (.data ⟨.read, a, b⟩)).w0.toNat = 4 * a.toNat + 2 :=
  toNat_shiftLeft_or_ofNat (k := 2) a (by decide) (by decide)

section

variable {c : CmdWords} {a : Byte}

/-- Word 0 of a data entry, as a number, gives back the fields put into it. -/
theorem cmdFields_of_toNat {w : Word} {t : Nat} (ht : t < 4) (h : w.toNat = 4 * a.toNat + t) :
    cmdRsv w = 0 ∧ cmdTag w = t ∧ cmdAddr w = a := by
  have ha : a.toNat < 256 := a.isLt
  have haddr : w.toNat / 4 = a.toNat := by omega
  refine ⟨(cmdRsv_eq_zero_iff w).2 (by omega), ?_, ?_⟩
  · rw [cmdTag_eq]
    omega
  · rw [cmdAddr_eq, haddr, BitVec.ofNat_toNat, BitVec.setWidth_eq]

theorem decodeCommand_write (h : c.w0.toNat = 4 * a.toNat + 1) :
    decodeCommand c = .ok (.data ⟨.write, a, ⟨c.w1, c.w2⟩⟩) := by
  obtain ⟨rsv, tag, addr⟩ := cmdFields_of_toNat (by decide) h
  simp only [decodeCommand, rsv, tag, addr, ne_eq, not_true, if_false]

theorem decodeCommand_read (h : c.w0.toNat = 4 * a.toNat + 2) :
    decodeCommand c = .ok (.data ⟨.read, a, ⟨c.w1, c.w2⟩⟩) := by
  obtain ⟨rsv, tag, addr⟩ := cmdFields_of_toNat (by decide) h
  simp only [decodeCommand, rsv, tag, addr, ne_eq, not_true, if_false]

/-- The tag `0b11` is rejected whatever stands above it (log 26). -/
theorem decodeCommand_tag_three (h : c.w0.toNat % 4 = 3) : decodeCommand c = .error .reserved := by
  by_cases rsv : cmdRsv c.w0 ≠ 0
  · exact if_pos rsv
  · rw [decodeCommand, if_neg rsv, cmdTag_eq, h]
    rfl

end

/-- A queue entry is read back from its words. -/
theorem decodeCommand_encodeCommand (k : Command) : decodeCommand (encodeCommand k) = .ok k := by
  cases k with
  | noop => rfl
  | data d =>
    obtain ⟨dir, a, b⟩ := d
    cases dir with
    | write => exact decodeCommand_write (encodeCommand_write_w0 a b)
    | read => exact decodeCommand_read (encodeCommand_read_w0 a b)

/-- Settles O6, by the number word 0 is and by the round trip of an entry. -/
theorem queueEntryWords : Obligations.QueueEntryWords := by
  refine ⟨rfl, fun a b => ⟨encodeCommand_write_w0 a b, encodeCommand_read_w0 a b, fun d => ?_⟩,
    decodeCommand_encodeCommand, fun _ => decodeCommand_tag_three⟩
  cases d <;> exact ⟨rfl, rfl⟩

/-! ### The encoded instructions -/

section

variable {op : Nat} (hop : op < 16)
include hop

theorem reqWord_toNat (a : Byte) : (reqWord op a).toNat = 16 * a.toNat + op :=
  toNat_shiftLeft_or_ofNat (k := 4) a (by decide) hop

/-- A task's request word decodes to the operation and the argument put into it. -/
theorem decodeReq_reqWord (n : Nat) (a : Byte) (wb rb : Buf) :
    decodeReq n .task (reqWord op a) wb rb = decodeTaskOp n op a wb rb := by
  have ha : a.toNat < 256 := a.isLt
  have hw := reqWord_toNat hop a
  have hnum : (reqWord op a).toNat / 16 = a.toNat := by omega
  have hmod : (reqWord op a).toNat % 16 = op := by omega
  rw [decodeReq_task_of_lt (by omega), hnum, hmod, BitVec.ofNat_toNat, BitVec.setWidth_eq]

end

/-- The CMD row of a queue entry is read back from the entry's words. -/
theorem decodeCmd_encodeCommand (k : Command) : decodeCmd (encodeCommand k) = .ok k.instr := by
  rw [decodeCmd, decodeCommand_encodeCommand]

end Sys2Proof.Encoding
end

section
/-!
PROOFS. The EVT and ERR tables (rules R87, R88): which case a status word selects, and that a handler entry runs it; and
the round trip of every instruction of the four formats.
-/

namespace Sys2Proof.Encoding

open Sys2Proof.Machine

/-! ### The case an encoded status word selects -/

section

variable {L : RegLayout} (hL : L.wf = true) (f : Sr1)
include hL

theorem decodeEvt_sr1ToWord (dir : Direction) (last : Bool) :
    decodeEvt L (sr1ToWord L f) dir last = (selectEvt f dir last).instr := by
  obtain ⟨o, h⟩ := sr1OfWord_sr1ToWord hL f
  rw [decodeEvt, h]
  rfl

theorem decodeErr_sr1ToWord : decodeErr L (sr1ToWord L f) = (selectErr f).instr := by
  obtain ⟨o, h⟩ := sr1OfWord_sr1ToWord hL f
  rw [decodeErr, h]
  rfl

end

/-! ### Decode of encode -/

section

variable {p : Params} (hL : p.layout.wf = true)
include hL

theorem decode_evtCode (f : Sr1) (dir : Direction) (last : Bool) :
    decode p (evtCode p f dir last) = .ok (selectEvt f dir last).instr :=
  congrArg Except.ok (decodeEvt_sr1ToWord hL f dir last)

theorem decode_err (f : Sr1) : decode p (.err (sr1ToWord p.layout f)) = .ok (selectErr f).instr :=
  congrArg Except.ok (decodeErr_sr1ToWord hL f)

end

/-- A Future operation on a slot the machine has decodes to itself (rule R73). -/
theorem decodeTaskOp_future {n : Nat} {slot : Byte} (wb rb : Buf) (h : slot.toNat < n) :
    decodeTaskOp n 4 slot wb rb = .ok (.futureReady slot) ∧ decodeTaskOp n 5 slot wb rb = .ok (.futureBlock slot) :=
  ⟨if_pos h, if_pos h⟩

/-- Settles O1, format by format: request words by their two fields, queue entries by their round trip, status words by
the case their one flag selects. -/
theorem decodeOfEncodeIsTheInstruction : Obligations.DecodeOfEncodeIsTheInstruction := by
  intro p i hp hi
  have hL : p.layout.wf = true := (Bool.and_eq_true_iff.1 hp).2
  cases i with
  | writeAsync a wb => exact decodeReq_reqWord (by decide) p.n a wb default
  | readAsync a rb => exact decodeReq_reqWord (by decide) p.n a default rb
  | writeReadAsync a wb rb => exact decodeReq_reqWord (by decide) p.n a wb rb
  | futureReady slot =>
    exact (decodeReq_reqWord (by decide) p.n slot default default).trans
      (decodeTaskOp_future default default (of_decide_eq_true hi)).1
  | futureBlock slot =>
    exact (decodeReq_reqWord (by decide) p.n slot default default).trans
      (decodeTaskOp_future default default (of_decide_eq_true hi)).2
  | evIrq => rfl
  | erIrq => rfl
  | cmdNoop => exact decodeCmd_encodeCommand .noop
  | cmdWrite a b => exact decodeCmd_encodeCommand (.data ⟨.write, a, b⟩)
  | cmdRead a b => exact decodeCmd_encodeCommand (.data ⟨.read, a, b⟩)
  | evSb | evAddrWrite | evAddrRead | evBtfWrite | evBtfRead | evBtfReadLast | evNone => exact decode_evtCode hL _ _ _
  | erTimeout | erPecerr | erOvr | erAf | erArlo | erBerr | erNone => exact decode_err hL _

/-! ### The rows of the tables in the default layout -/

/-- A bit under the mask of a row is the row's bit. -/
theorem getLsbD_of_and_eq {w mask row : Word} (h : w &&& mask = row) (i : Nat) (hi : mask.getLsbD i = true) :
    w.getLsbD i = row.getLsbD i := by
  rw [← h, BitVec.getLsbD_and, hi, Bool.and_true]

/-- The EVT table reads three bits. -/
theorem decodeEvt_default (w : Word) (dir : Direction) (last : Bool) :
    decodeEvt .default w dir last =
      (selectEvt { Sr1.none with sb := w.getLsbD 0, addr := w.getLsbD 1, btf := w.getLsbD 2 } dir last).instr := rfl

/-- The ERR table reads six bits. -/
theorem decodeErr_default (w : Word) :
    decodeErr .default w =
      (selectErr { Sr1.none with
        timeout := w.getLsbD 14, pecerr := w.getLsbD 12, ovr := w.getLsbD 11, af := w.getLsbD 10,
        arlo := w.getLsbD 9, berr := w.getLsbD 8 }).instr := rfl

/-- The rows of the EVT table, each by the bits under its mask. -/
theorem decodeEvt_rows (w : Word) (dir : Direction) (last : Bool) :
    (w &&& 0x1 = 0x1 → decodeEvt .default w dir last = .evSb) ∧
    (w &&& 0x3 = 0x2 → decodeEvt .default w .write last = .evAddrWrite) ∧
    (w &&& 0x3 = 0x2 → decodeEvt .default w .read last = .evAddrRead) ∧
    (w &&& 0x7 = 0x4 → decodeEvt .default w .write last = .evBtfWrite) ∧
    (w &&& 0x7 = 0x4 → decodeEvt .default w .read false = .evBtfRead) ∧
    (w &&& 0x7 = 0x4 → decodeEvt .default w .read true = .evBtfReadLast) ∧
    (w &&& 0x7 = 0x0 → decodeEvt .default w dir last = .evNone) := by
  simp only [decodeEvt_default]
  refine ⟨fun h => ?sb, fun h => ?addrW, fun h => ?addrR, fun h => ?btfW, fun h => ?btfR, fun h => ?btfRL,
    fun h => ?none⟩
  case sb => rw [getLsbD_of_and_eq h 0 rfl]; rfl
  case addrW | addrR => rw [getLsbD_of_and_eq h 0 rfl, getLsbD_of_and_eq h 1 rfl]; rfl
  case btfW | btfR | btfRL | none =>
    rw [getLsbD_of_and_eq h 0 rfl, getLsbD_of_and_eq h 1 rfl, getLsbD_of_and_eq h 2 rfl]; rfl

/-- The rows of the ERR table, each by the bits under its mask. -/
theorem decodeErr_rows (w : Word) :
    (w &&& 0x4000 = 0x4000 → decodeErr .default w = .erTimeout) ∧
    (w &&& 0x5000 = 0x1000 → decodeErr .default w = .erPecerr) ∧
    (w &&& 0x5800 = 0x0800 → decodeErr .default w = .erOvr) ∧
    (w &&& 0x5C00 = 0x0400 → decodeErr .default w = .erAf) ∧
    (w &&& 0x5E00 = 0x0200 → decodeErr .default w = .erArlo) ∧
    (w &&& 0x5F00 = 0x0100 → decodeErr .default w = .erBerr) ∧
    (w &&& 0x5F00 = 0x0000 → decodeErr .default w = .erNone) := by
  simp only [decodeErr_default]
  have bit {mask row : Word} (h : w &&& mask = row) := getLsbD_of_and_eq h
  refine ⟨fun h => ?timeout, fun h => ?pecerr, fun h => ?ovr, fun h => ?af, fun h => ?arlo, fun h => ?berr,
    fun h => ?none⟩
  case timeout => rw [bit h 14 rfl]; rfl
  case pecerr => rw [bit h 14 rfl, bit h 12 rfl]; rfl
  case ovr => rw [bit h 14 rfl, bit h 12 rfl, bit h 11 rfl]; rfl
  case af => rw [bit h 14 rfl, bit h 12 rfl, bit h 11 rfl, bit h 10 rfl]; rfl
  case arlo => rw [bit h 14 rfl, bit h 12 rfl, bit h 11 rfl, bit h 10 rfl, bit h 9 rfl]; rfl
  case berr | none =>
    rw [bit h 14 rfl, bit h 12 rfl, bit h 11 rfl, bit h 10 rfl, bit h 9 rfl, bit h 8 rfl]; rfl

/-! ### The entries run the selected case -/

theorem exec_evCase (k : EvCase) (s : State) : exec k.instr s = runEvCase k s := by cases k <;> rfl

theorem exec_erIrq (s : State) : exec .erIrq s = exec (selectErr s.sr1).instr s := by
  change execErIrq s = _
  unfold execErIrq
  cases selectErr s.sr1 <;> rfl

/-- On an empty queue the highest-priority set event flag is written to 0; where none is set, BTF is 0 already. -/
theorem clearTopEvent_eq (s : State) :
    clearTopEvent s = { s with
      sr1 :=
        if s.sr1.sb then { s.sr1 with sb := false }
        else if s.sr1.addr then { s.sr1 with addr := false }
        else { s.sr1 with btf := false } } := by
  unfold clearTopEvent
  split
  · rfl
  · split
    · rfl
    · split
      · rfl
      · rename_i btf
        rw [← Bool.eq_false_of_not_eq_true btf]

/-- Settles O4, by the rows of the EVT table and by what an entry runs on a data Command and on an empty queue. -/
theorem evEntryFollowsTheTable : Obligations.EvEntryFollowsTheTable := by
  refine ⟨decodeEvt_rows, fun s c r hL front => ?_, fun s empty => ?_⟩
  · rw [sr1Word_default hL, decodeEvt_sr1ToWord default_wf, exec_evCase]
    exact onHead_data front
  · rw [← clearTopEvent_eq]
    change onHead s _ = _
    rw [onHead, empty]

/-- Settles O5, by the rows of the ERR table and by what an entry runs. -/
theorem erEntryFollowsTheTable : Obligations.ErEntryFollowsTheTable := by
  refine ⟨decodeErr_rows, fun s hL => ?_⟩
  rw [sr1Word_default hL, decodeErr_sr1ToWord default_wf, exec_erIrq]

/-- Settles O9: the words are closed, and the buffer ports play no part. -/
theorem handWrittenWordsDecode : Obligations.HandWrittenWordsDecode :=
  ⟨fun _ _ => rfl, fun _ _ => rfl, fun _ _ => rfl, fun _ _ => rfl, rfl, rfl, rfl⟩

end Sys2Proof.Encoding
end

section
/-!
PROOFS. The value encodings (rules R78 to R82) and the forms a meaning stops on (rules R73, R87, R8, R141).
-/

namespace Sys2Proof.Encoding

open Sys2Proof.Machine

/-! ### STATE, ECODE, POLL, ENQ (rules R78 to R81) -/

theorem ecode_le (e : BusError) : ecode e ≤ 8 := by
  rcases e with _ | (_ | _ | _) | _ | _ | _ | _ | _ <;> decide

theorem errorOfEcode_ecode (e : BusError) : errorOfEcode (ecode e) = some e := by
  rcases e with _ | (_ | _ | _) | _ | _ | _ | _ | _ <;> rfl

theorem errorOfEcode_reserved {n : Nat} (h : 9 ≤ n) : errorOfEcode n = none := by
  unfold errorOfEcode
  split
  iterate 9 omega
  rfl

theorem encodePhase_fail_toNat (e : BusError) : (encodePhase (.fail e)).toNat = 6 + 8 * ecode e := by
  have := ecode_le e
  rw [encodePhase, BitVec.toNat_ofNat, Nat.mod_eq_of_lt (by omega)]

theorem encodePoll_readyErr_toNat (e : BusError) : (encodePoll (.readyErr e)).toNat = 2 + 4 * ecode e := by
  have := ecode_le e
  rw [encodePoll, BitVec.toNat_ofNat, Nat.mod_eq_of_lt (by omega)]

/-- A Protocol State is read back from its byte, whose bit 7 is 0. -/
theorem decodePhase_encodePhase (p : Phase) :
    decodePhase (encodePhase p) = some p ∧ (encodePhase p).toNat < 128 := by
  cases p with
  | begin | startGenerated | addressSend | byteProcessing | lastByte | finished => exact ⟨rfl, by decide⟩
  | fail e =>
    have hle := ecode_le e
    have hlow : (6 + 8 * ecode e) % 8 = 6 := by omega
    have hhigh : (6 + 8 * ecode e) / 8 = ecode e := by omega
    have hbyte : 6 + 8 * ecode e < 128 := by omega
    rw [decodePhase, encodePhase_fail_toNat, if_neg (Nat.not_le.2 hbyte), hlow, hhigh]
    exact ⟨congrArg (Option.map Phase.fail) (errorOfEcode_ecode e), hbyte⟩

/-- A Poll is read back from its byte, whose bits 7:6 are 0. -/
theorem decodePoll_encodePoll (v : Poll) : decodePoll (encodePoll v) = some v ∧ (encodePoll v).toNat < 64 := by
  cases v with
  | pending | readyOk => exact ⟨rfl, by decide⟩
  | readyErr e =>
    have hle := ecode_le e
    have hlow : (2 + 4 * ecode e) % 4 = 2 := by omega
    have hhigh : (2 + 4 * ecode e) / 4 = ecode e := by omega
    have hbyte : 2 + 4 * ecode e < 64 := by omega
    rw [decodePoll, encodePoll_readyErr_toNat, if_neg (Nat.not_le.2 hbyte), hlow, hhigh]
    exact ⟨congrArg (Option.map Poll.readyErr) (errorOfEcode_ecode e), hbyte⟩

/-- A slot number is its own `ENQ` value and is read back from it. -/
theorem decodeEnq_encodeEnq {k : Nat} (hk : k < 256) :
    (encodeEnq (.ok k)).toNat = k ∧ decodeEnq (encodeEnq (.ok k)) = some (.ok k) := by
  have hnum : (encodeEnq (.ok k)).toNat = k := by
    rw [encodeEnq, BitVec.toNat_ofNat, Nat.mod_eq_of_lt hk, Nat.mod_eq_of_lt (by omega)]
  exact ⟨hnum, by rw [decodeEnq, hnum, if_pos hk]⟩

/-- Settles O7, value by value, an Error through its `ECODE`. -/
theorem valueEncodings : Obligations.ValueEncodings :=
  ⟨rfl, rfl, fun _ => errorOfEcode_reserved, rfl, rfl, decodePhase_encodePhase,
    fun e => ⟨encodePhase_fail_toNat e, errorOfEcode_ecode e, encodePoll_readyErr_toNat e⟩, decodePoll_encodePoll,
    fun _ => decodeEnq_encodeEnq, rfl, rfl⟩

/-! ### The address byte (rule R82) -/

theorem addrByte_write_toNat (a : Byte) : (addrByte a .write).toNat = 2 * a.toNat % 256 := by
  simp [addrByte, Nat.shiftLeft_eq, Nat.mul_comm]

theorem addrByte_read_toNat (a : Byte) : (addrByte a .read).toNat = (2 * a.toNat + 1) % 256 := by
  have hor : a <<< 1 ||| 1#8 = a <<< 1 + 1#8 := by
    refine (BitVec.add_eq_or_of_and_eq_zero _ _ ?_).symm
    ext i hi
    simp +contextual
  rw [addrByte, hor, BitVec.toNat_add, BitVec.toNat_shiftLeft, Nat.shiftLeft_eq, Nat.mul_comm]
  simp

/-- The shift drops bit 7 of the argument. -/
theorem addrByte_xor_bit_seven (a : Byte) (d : Direction) : addrByte (a ^^^ 0x80) d = addrByte a d := by
  have hshift : (a ^^^ (0x80 : Byte)) <<< 1 = a <<< 1 := by
    rw [BitVec.shiftLeft_xor_distrib]
    exact BitVec.xor_zero
  unfold addrByte
  rw [hshift]

theorem exec_evSb_data {s : State} {c : DataCmd} {r : List Command} (front : s.queue = .data c :: r) :
    exec .evSb s = .next (clearSb (writeDr (addrByte c.addr c.dir) (setHeadPhase .startGenerated s))) :=
  onHead_data front

/-- Settles O8, by the number the address byte is and by what EV_SB leaves. -/
theorem addressByteDropsBitSeven : Obligations.AddressByteDropsBitSeven :=
  ⟨fun a => ⟨addrByte_write_toNat a, addrByte_read_toNat a, addrByte_xor_bit_seven a⟩,
    fun _ _ _ front => ⟨_, exec_evSb_data front, rfl⟩⟩

/-! ### The forms a meaning stops on -/

/-- A Future operation on a slot the machine has not is refused (rule R73). -/
theorem exec_future_badSlot {s : State} {slot : Byte} (h : s.params.n ≤ slot.toNat) :
    exec (.futureReady slot) s = .refused .badSlot ∧ exec (.futureBlock slot) s = .refused .badSlot :=
  ⟨if_neg (Nat.not_lt.2 h), if_neg (Nat.not_lt.2 h)⟩

/-- Finalize without a NoOp at the head stops (log 15). -/
theorem finalize_fault {s : State} (h : ∀ r, s.queue ≠ .noop :: r) : finalize s = .fault .noNoopToFinalize := by
  unfold finalize
  split
  · rename_i r hq
    exact absurd hq (h r)
  · rfl
  · rfl

/-- An address of `2^32` or more is no address of caller memory (rule R8). -/
theorem isAddr_of_le {a : Nat} (h : 2 ^ 32 ≤ a) : isAddr a = false := decide_eq_false (Nat.not_lt.2 h)

/-- A byte to transmit outside the address space stops the handler (log 6). -/
theorem transmitNext_fault {c : DataCmd} {s : State} (room : s.cursor < c.buf.len.toNat)
    (far : 2 ^ 32 ≤ bufAddr c.buf s.cursor) :
    transmitNext c s = .fault (.outsideAddressSpace (bufAddr c.buf s.cursor)) := by
  rw [transmitNext, if_pos room, isAddr_of_le far, if_neg Bool.false_ne_true]

/-- A byte to store outside the address space stops the handler (log 6). -/
theorem capture_fault {c : DataCmd} {f : State → State} {s : State} (room : s.cursor < c.buf.len.toNat)
    (far : 2 ^ 32 ≤ bufAddr c.buf s.cursor) :
    capture c f s = .fault (.outsideAddressSpace (bufAddr c.buf s.cursor)) := by
  rw [capture, if_neg (Nat.not_le.2 room), isAddr_of_le far, if_neg Bool.false_ne_true]

section

variable {s : State} {c : DataCmd} {r : List Command} (front : s.queue = .data c :: r)
include front

/-- The Write cases run on a Write. -/
theorem exec_evWrite_of_write (dir : c.dir = .write) :
    exec .evAddrWrite s = transmitNext c (clearAddr (setHeadPhase .addressSend s)) ∧
      exec .evBtfWrite s = transmitNext c (clearBtf (setHeadPhase .byteProcessing s)) := by
  simp only [exec, execEvAddrWrite, execEvBtfWrite, onHead_data front, dir, and_self]

/-- The Write cases are refused on a Read (log 14). -/
theorem exec_evWrite_of_read (dir : c.dir = .read) :
    exec .evAddrWrite s = .refused .caseNotSelected ∧ exec .evBtfWrite s = .refused .caseNotSelected := by
  simp only [exec, execEvAddrWrite, execEvBtfWrite, onHead_data front, dir, and_self]

/-- The Read cases are refused on a Write (log 14). -/
theorem exec_evRead_of_write (dir : c.dir = .write) :
    exec .evAddrRead s = .refused .caseNotSelected ∧ exec .evBtfRead s = .refused .caseNotSelected ∧
      exec .evBtfReadLast s = .refused .caseNotSelected := by
  simp only [exec, execEvAddrRead, execEvBtfRead, execEvBtfReadLast, onHead_data front, dir, and_self]

/-- EV_BTF_READ captures before the last byte. -/
theorem exec_evBtfRead_of_read (dir : c.dir = .read) (phase : headPhase s ≠ .lastByte) :
    exec .evBtfRead s = capture c (nackLast c) (beginReceive s) := by
  simp only [exec, execEvBtfRead, onHead_data front, dir, if_neg phase]

/-- EV_BTF_READ_LAST captures the last byte. -/
theorem exec_evBtfReadLast_of_read (dir : c.dir = .read) (phase : headPhase s = .lastByte) :
    exec .evBtfReadLast s = capture c beginStopWait (clearBtf s) := by
  simp only [exec, execEvBtfReadLast, onHead_data front, dir, if_pos phase]

/-- EV_BTF_READ is refused in LastByte, whatever the head's direction (log 14). -/
theorem exec_evBtfRead_of_lastByte (phase : headPhase s = .lastByte) :
    exec .evBtfRead s = .refused .caseNotSelected := by
  cases dir : c.dir with
  | write => exact (exec_evRead_of_write front dir).2.1
  | read => simp only [exec, execEvBtfRead, onHead_data front, dir, if_pos phase]

/-- EV_BTF_READ_LAST is refused outside LastByte, whatever the head's direction (log 14). -/
theorem exec_evBtfReadLast_of_not_lastByte (phase : headPhase s ≠ .lastByte) :
    exec .evBtfReadLast s = .refused .caseNotSelected := by
  cases dir : c.dir with
  | write => exact (exec_evRead_of_write front dir).2.2
  | read => simp only [exec, execEvBtfReadLast, onHead_data front, dir, if_neg phase]

end

/-- Settles O30, stop by stop: what the head's direction and phase exclude is refused, and a byte outside the address
space faults, since no write before it moves the cursor. -/
theorem formsThatStopByName : Obligations.FormsThatStopByName := by
  intro s
  refine ⟨fun _ => exec_future_badSlot, finalize_fault, fun c r front => ⟨exec_evWrite_of_read front,
    exec_evRead_of_write front, exec_evBtfRead_of_lastByte front, exec_evBtfReadLast_of_not_lastByte front,
    fun room far => ⟨fun dir => ?transmit, fun dir phase => ?receive, fun dir phase => ?last⟩⟩⟩
  case transmit =>
    obtain ⟨addr, btf⟩ := exec_evWrite_of_write front dir
    exact ⟨addr.trans (transmitNext_fault room far), btf.trans (transmitNext_fault room far)⟩
  case receive =>
    have cursor : (beginReceive s).cursor = s.cursor := Safety.beginReceive_cursor s
    rw [exec_evBtfRead_of_read front dir phase, ← cursor]
    exact capture_fault (cursor ▸ room) (cursor ▸ far)
  case last => exact (exec_evBtfReadLast_of_read front dir phase).trans (capture_fault room far)

end Sys2Proof.Encoding
end

section
/-!
PROOFS. The five enqueuing instructions and the raw enqueue port (rules R100 to R106, R112): what an enqueue does on an
empty queue, behind others and without room, which lists it takes, and the slots handed out in turn.
-/

namespace Sys2Proof.HostOps

open Sys2Proof.Machine Sys2Proof.Safety Sys2Proof.Spec

/-! ### The enqueuing instructions -/

/-- Each of the five means the enqueue of its list (rules R104 to R106; log 13). -/
theorem exec_of_enqueues {i : Instr} {cs : List DataCmd} (h : enqueues i = some cs) (s : State) :
    exec i s = .next (enqueue cs s) := by
  cases i with
  | writeAsync | readAsync | writeReadAsync | cmdWrite | cmdRead => cases h; rfl
  | _ => cases h

/-- What they enqueue is `[Write]`, `[Read]` or `[Write, Read]` (rule R112). -/
theorem dirs_of_enqueues {i : Instr} {cs : List DataCmd} (h : enqueues i = some cs) :
    cs.map DataCmd.dir ∈ [[.write], [.read], [.write, .read]] := by
  cases i with
  | writeAsync | readAsync | writeReadAsync | cmdWrite | cmdRead => cases h; simp
  | _ => cases h

/-! ### Room in the queue (rules R100 to R103) -/

section

variable {s : State} {cs : List DataCmd}

theorem enqueue_of_room (room : s.queue.length + cs.length + 1 ≤ s.params.n) : enqueue cs s = acceptEnqueue cs s :=
  if_neg (Nat.not_lt.2 room)

theorem enqueue_of_no_room (full : s.params.n < s.queue.length + cs.length + 1) :
    enqueue cs s = giveResult (.enq .busy) s :=
  if_pos full

/-- On an empty queue the vectors are armed and a START is requested (rule R100). -/
theorem acceptEnqueue_of_nil (idle : s.queue = []) :
    acceptEnqueue cs s = giveResult (.enq (.ok (nextSlot s))) (startIdle (pushGroup cs s)) := by
  rw [acceptEnqueue, idle, List.isEmpty_nil, if_pos rfl]

/-- Behind others they are not (rule R103). -/
theorem acceptEnqueue_of_ne_nil (busy : s.queue ≠ []) :
    acceptEnqueue cs s = giveResult (.enq (.ok (nextSlot s))) (pushGroup cs s) := by
  rw [acceptEnqueue, if_neg (mt List.isEmpty_iff.1 busy)]

/-- With no transaction queued the head slot is handed out (rule R102). -/
theorem nextSlot_of_nil (idle : s.queue = []) : nextSlot s = s.head % s.params.n := by
  rw [nextSlot, idle, noops_nil, Nat.add_zero]

end

/-- Settles O22: the queue is empty, so the head slot is handed out and the engine is started. -/
theorem enqueueOnAnIdleEngineStartsIt : Obligations.EnqueueOnAnIdleEngineStartsIt := by
  intro s i cs h idle fits
  have room : s.queue.length + cs.length + 1 ≤ s.params.n := by
    rw [idle, List.length_nil, Nat.zero_add]
    exact fits
  rw [exec_of_enqueues h, enqueue_of_room room, acceptEnqueue_of_nil idle]
  simp only [giveResult, startIdle, arm, issueStart, pushGroup, group, nextSlot_of_nil idle, idle, List.nil_append]

/-- Settles O23: the queue is not empty, so the entries are pushed and the engine is left to run. -/
theorem enqueueBehindOthersWaits : Obligations.EnqueueBehindOthersWaits := by
  intro s i cs h busy room
  rw [exec_of_enqueues h, enqueue_of_room room, acceptEnqueue_of_ne_nil busy]
  rfl

/-- Settles O24: without room nothing but the result is written. -/
theorem enqueueWithoutRoomIsBusy : Obligations.EnqueueWithoutRoomIsBusy := by
  refine ⟨rfl, fun s i cs h full => ?_⟩
  rw [exec_of_enqueues h, enqueue_of_no_room full]
  rfl

/-! ### The raw enqueue port (rule R112) -/

/-- A list of encoded entries is read back entry by entry. -/
theorem decodeEntries_map_encodeCommand (ks : List Command) : decodeEntries (ks.map encodeCommand) = .ok ks := by
  induction ks with
  | nil => rfl
  | cons k ks ih => simp only [List.map_cons, decodeEntries, Encoding.decodeCommand_encodeCommand, ih]

section

variable {s : State} {ks : List Command} (free : taskMayRun s = true)
include free

/-- The port enqueues a list of legal shape. -/
theorem runMove_rawEnqueue_of_legal {cs : List DataCmd} (h : legalShape ks = some cs) :
    runMove (.rawEnqueue (ks.map encodeCommand)) s = .next (enqueue cs s) := by
  simp only [runMove, runRawEnqueue, free, if_true, decodeEntries_map_encodeCommand, h]

/-- The port refuses every other list (rule R112). -/
theorem runMove_rawEnqueue_of_illegal (h : legalShape ks = none) :
    runMove (.rawEnqueue (ks.map encodeCommand)) s = .refused .badShape := by
  simp only [runMove, runRawEnqueue, free, if_true, decodeEntries_map_encodeCommand, h, refusalOf]

end

/-- A list that is not of the three kinds has no legal shape. -/
theorem legalShape_eq_none {ks : List Command} (one : ∀ c, ks ≠ [.data c])
    (two : ∀ c d, c.dir = .write → d.dir = .read → ks ≠ [.data c, .data d]) : legalShape ks = none := by
  unfold legalShape
  split
  · exact absurd rfl (one _)
  · exact if_neg fun ⟨write, read⟩ => two _ _ write read rfl
  · rfl

/-- Settles O27: the port reads back the encoded list, and its shape decides. -/
theorem rawEnqueueChecksTheShape : Obligations.RawEnqueueChecksTheShape := by
  refine ⟨fun s _ _ h => ⟨exec_of_enqueues h s, dirs_of_enqueues h⟩, fun s ks free => ⟨?single, ?pair, ?other⟩⟩
  case single =>
    rintro c rfl
    exact runMove_rawEnqueue_of_legal free rfl
  case pair =>
    rintro c d rfl write read
    exact runMove_rawEnqueue_of_legal free (if_pos ⟨write, read⟩)
  case other => exact fun one two => runMove_rawEnqueue_of_illegal free (legalShape_eq_none one two)

/-! ### Slots in turn (rules R102, R141) -/

/-- Up to its first NoOp a queue holds no other. -/
theorem noops_of_dropWhile {q r : List Command} (h : q.dropWhile (fun k => !isNoop k) = .noop :: r) :
    noops q = noops r + 1 := by
  induction q with
  | nil => cases h
  | cons k q ih =>
    cases k with
    | noop =>
      obtain ⟨-, rfl⟩ := List.cons_eq_cons.1 h
      exact noops_cons_noop q
    | data c => exact (noops_cons_data c q).trans (ih h)

/-- The next slot depends on `head`, `N` and the number of NoOps only. -/
theorem nextSlot_congr {s t : State} (params : t.params = s.params) (head : t.head = s.head)
    (count : noops t.queue = noops s.queue) : nextSlot t = nextSlot s := by
  rw [nextSlot, nextSlot, params, head, count]

/-- The end of a transaction moves `head` on by one and takes one NoOp away. -/
theorem nextSlot_of_resolved {s t : State} {r : List Command} (ended : Resolved s r t) : nextSlot t = nextSlot s := by
  rw [nextSlot, nextSlot, ended.params, ended.head, ended.queue, noops_of_dropWhile ended.group, Nat.mod_add_mod,
    Nat.add_assoc, Nat.add_comm 1]

/-- An accepted enqueue adds one NoOp. -/
theorem nextSlot_acceptEnqueue (cs : List DataCmd) (s : State) :
    nextSlot (acceptEnqueue cs s) = (nextSlot s + 1) % s.params.n := by
  rw [nextSlot, nextSlot, acceptEnqueue_params, acceptEnqueue_head, acceptEnqueue_queue, noops_append, noops_group,
    Nat.mod_add_mod, Nat.add_assoc]

/-- The six shapes of a step: only an accepted enqueue moves the next slot on. -/
theorem nextSlot_of_effect {s t : State} (h : Inv s) (effect : Effect s t) :
    nextSlot t = nextSlot s ∨
      (nextSlot t = (nextSlot s + 1) % s.params.n ∧ t.results = s.results ++ [.enq (.ok (nextSlot s))]) := by
  cases effect with
  | outside work queue => exact .inl (nextSlot_congr work.params work.head (by rw [queue]))
  | served _ work queue => exact .inl (nextSlot_congr work.params work.head (by rw [queue]))
  | @advanced _ c d r front _ work queue =>
    exact .inl (nextSlot_congr work.params work.head (by rw [queue, front, noops_cons_data c (.data d :: r)]))
  | resolved ended => exact .inl (nextSlot_of_resolved ended)
  | accepted cs => exact .inr ⟨nextSlot_acceptEnqueue cs s, acceptEnqueue_results cs s⟩
  | broken _ shape => exact nomatch h.shape.symm.trans shape

/-- Settles O26, by the six shapes of a step. -/
theorem slotsAreHandedOutInTurn : Obligations.SlotsAreHandedOutInTurn := by
  intro s t h hstep
  obtain ⟨sc, tk, effect⟩ := step_effect hstep
  have inTurn := nextSlot_of_effect (inv_offers h sc tk) effect
  exact inTurn

end Sys2Proof.HostOps
end

section
/-!
PROOFS. The two Future operations (rules R107, R108), and what every host operation leaves unchanged.
-/

namespace Sys2Proof.HostOps

open Sys2Proof.Machine Sys2Proof.Safety Sys2Proof.Spec

/-! ### The Poll of a slot (rule R107) -/

theorem phaseTerminal_eq_false_iff {p : Phase} :
    phaseTerminal p = false ↔ p ∈ [.begin, .startGenerated, .addressSend, .byteProcessing, .lastByte] := by
  cases p <;> simp [phaseTerminal]

theorem pollOf_of_open {p : Phase} (h : phaseTerminal p = false) : pollOf p = .pending := by
  cases p with
  | begin | startGenerated | addressSend | byteProcessing | lastByte => rfl
  | finished | fail => cases h

section

variable {s : State} {slot : Nat}

/-- The Poll of an unresolved slot is Pending and ends no loan. -/
theorem returnPoll_of_open (h : phaseTerminal (phaseAt s slot) = false) :
    returnPoll slot s = giveResult (.poll .pending) s := by
  rw [returnPoll, h, pollOf_of_open h, if_neg Bool.false_ne_true]

theorem returnPoll_of_finished (h : phaseAt s slot = .finished) :
    returnPoll slot s = endLoans slot (giveResult (.poll .readyOk) s) := by
  rw [returnPoll, h]
  rfl

theorem returnPoll_of_fail {e : BusError} (h : phaseAt s slot = .fail e) :
    returnPoll slot s = endLoans slot (giveResult (.poll (.readyErr e)) s) := by
  rw [returnPoll, h]
  rfl

theorem terminal_of_finished (h : phaseAt s slot = .finished) : phaseTerminal (phaseAt s slot) = true := by
  rw [h]
  rfl

theorem terminal_of_fail {e : BusError} (h : phaseAt s slot = .fail e) : phaseTerminal (phaseAt s slot) = true := by
  rw [h]
  rfl

end

/-! ### The two instructions -/

section

variable {s : State} {slot : Byte} (bound : slot.toNat < s.params.n)
include bound

theorem exec_futureReady : exec (.futureReady slot) s = .next (returnPoll slot.toNat s) := if_pos bound

/-- FUTURE_BLOCK returns at once on a resolved slot. -/
theorem exec_futureBlock_of_terminal (h : phaseTerminal (phaseAt s slot.toNat) = true) :
    exec (.futureBlock slot) s = .next (returnPoll slot.toNat s) :=
  (if_pos bound).trans (if_pos h)

/-- FUTURE_BLOCK holds on an unresolved slot. -/
theorem exec_futureBlock_of_open (h : phaseTerminal (phaseAt s slot.toNat) = false) :
    exec (.futureBlock slot) s = .next (holdBlock slot.toNat s) :=
  (if_pos bound).trans (if_neg (ne_true_of_eq_false h))

end

/-- Settles O28: the Poll of each phase. -/
theorem futureReadyReturnsThePoll : Obligations.FutureReadyReturnsThePoll := by
  intro s slot bound
  rw [exec_futureReady bound]
  refine ⟨fun h => ?_, fun h => ?_, fun e h => ?_⟩
  · rw [returnPoll_of_open (phaseTerminal_eq_false_iff.2 h)]
    rfl
  · rw [returnPoll_of_finished h]
    rfl
  · rw [returnPoll_of_fail h]
    rfl

/-! ### A holding FUTURE_BLOCK (rule R108) -/

section

variable {s : State} {h : Hold} {k : Nat} (found : s.blocked[k]? = some h)
include found

/-- A held FUTURE_BLOCK returns once its caller can run and its slot is terminal. -/
theorem runMove_resume_of_mayResume (may : mayResume h s = true) :
    runMove (.resume k) s = .next { returnPoll h.slot s with blocked := s.blocked.eraseIdx k } := by
  simp only [runMove, runResume, found, may, if_true]

/-- A held FUTURE_BLOCK goes on holding while its slot is unresolved. -/
theorem runMove_resume_of_open (open_ : phaseTerminal (phaseAt s h.slot) = false) :
    runMove (.resume k) s = .next s := by
  simp only [runMove, runResume, found, mayResume, open_, Bool.and_false, Bool.false_eq_true, if_false]

end

/-- A caller in the context it called from can run outside the STOP wait (logs 33, 35). -/
theorem mayResume_of_terminal {s : State} {h : Hold} (idle : s.waitStop = false)
    (inCritical : h.inCritical = s.critical) (raised : h.raised = s.raised)
    (terminal : phaseTerminal (phaseAt s h.slot) = true) : mayResume h s = true := by
  simp [mayResume, idle, inCritical, raised, terminal]

/-- Settles O29: the Poll of a terminal slot at once or at the resume, and a hold on another. -/
theorem futureBlockHoldsUntilResolved : Obligations.FutureBlockHoldsUntilResolved := by
  refine ⟨fun s slot bound => ⟨fun h => ?_, fun e h => ?_, exec_futureBlock_of_open bound⟩,
    fun s k hold found idle inCritical raised => ⟨fun h => ?_, fun e h => ?_, runMove_resume_of_open found⟩⟩
  · rw [exec_futureBlock_of_terminal bound (terminal_of_finished h), returnPoll_of_finished h]
    rfl
  · rw [exec_futureBlock_of_terminal bound (terminal_of_fail h), returnPoll_of_fail h]
    rfl
  · rw [runMove_resume_of_mayResume found (mayResume_of_terminal idle inCritical raised (terminal_of_finished h)),
      returnPoll_of_finished h]
    rfl
  · rw [runMove_resume_of_mayResume found (mayResume_of_terminal idle inCritical raised (terminal_of_fail h)),
      returnPoll_of_fail h]
    rfl

/-! ### What a host operation leaves unchanged -/

/-- What every host operation keeps from `s` to `t`. By default each field says that it does not write the part it
speaks of. -/
structure HostKeeps (s t : State) : Prop where
  outside : sameOutside s t := by and_intros <;> rfl
  head : t.head = s.head := by rfl
  cursor : t.cursor = s.cursor := by rfl
  waitStop : t.waitStop = s.waitStop := by rfl
  faults : t.faults = s.faults := by rfl
  sr1 : t.sr1 = s.sr1 := by rfl
  stop : t.cr1.stop = s.cr1.stop := by rfl
  drTx : t.drTx = s.drTx := by rfl
  mode : t.mode = s.mode := by rfl
  mem : t.mem = s.mem := by rfl
  slots : ∀ j, j ≠ nextSlot s → phaseAt t j = phaseAt s j := by exact fun _ _ => rfl

/-- An enqueue writes no slot but the one it hands out (rules R100, R101, R103). -/
theorem hostKeeps_enqueue (cs : List DataCmd) (s : State) : HostKeeps s (enqueue cs s) := by
  obtain ⟨-, h⟩ | ⟨-, h⟩ := enqueue_cases cs s
  · rw [h]
    exact {}
  · have slots : ∀ j, j ≠ nextSlot s → phaseAt (acceptEnqueue cs s) j = phaseAt s j :=
      fun j hj => phaseAt_of_set_ne (acceptEnqueue_slots cs s) hj.symm
    rw [h]
    by_cases idle : s.queue = []
    · rw [acceptEnqueue_of_nil idle] at slots ⊢
      exact { slots }
    · rw [acceptEnqueue_of_ne_nil idle] at slots ⊢
      exact { slots }

theorem enqueue_blocked (cs : List DataCmd) (s : State) : (enqueue cs s).blocked = s.blocked := by
  unfold enqueue acceptEnqueue
  repeat' split
  all_goals rfl

/-- A Future operation writes the tasks' side only (rules R107, R108). -/
theorem exec_future_next {s t : State} {i : Instr} (h : isFuture i = true) (ran : exec i s = .next t) :
    ∃ rs ls bs, t = { s with results := rs, loans := ls, blocked := bs } := by
  have polled (slot : Nat) :
      ∃ rs ls bs, returnPoll slot s = { s with results := rs, loans := ls, blocked := bs } := by
    obtain ⟨ls, -, eq⟩ := returnPoll_eq slot s
    exact ⟨_, ls, s.blocked, eq⟩
  cases i with
  | futureReady slot =>
    by_cases bound : slot.toNat < s.params.n
    · cases (exec_futureReady bound).symm.trans ran
      exact polled _
    · cases (Encoding.exec_future_badSlot (Nat.not_lt.1 bound)).1.symm.trans ran
  | futureBlock slot =>
    by_cases bound : slot.toNat < s.params.n
    · cases terminal : phaseTerminal (phaseAt s slot.toNat) with
      | true =>
        cases (exec_futureBlock_of_terminal bound terminal).symm.trans ran
        exact polled _
      | false =>
        cases (exec_futureBlock_of_open bound terminal).symm.trans ran
        exact ⟨_, _, _, rfl⟩
    · cases (Encoding.exec_future_badSlot (Nat.not_lt.1 bound)).2.symm.trans ran
  | _ => cases h

/-- What an enqueuing instruction answers. -/
theorem exec_enqueues_next {s t : State} {i : Instr} (h : enqueues i ≠ none) (ran : exec i s = .next t) :
    ∃ cs, t = enqueue cs s := by
  obtain ⟨cs, hcs⟩ := Option.ne_none_iff_exists'.1 h
  cases (exec_of_enqueues hcs s).symm.trans ran
  exact ⟨cs, rfl⟩

/-- Settles O48: an enqueue writes the slot it hands out, and a Future operation writes the tasks' side only. -/
theorem hostOperationFrame : Obligations.HostOperationFrame := by
  intro s t i host ran
  have keeps : HostKeeps s t := by
    obtain h | h := host
    · obtain ⟨cs, rfl⟩ := exec_enqueues_next h ran
      exact hostKeeps_enqueue cs s
    · obtain ⟨rs, ls, bs, rfl⟩ := exec_future_next h ran
      exact {}
  obtain ⟨outside, head, cursor, waitStop, faults, sr1, stop, drTx, mode, mem, slots⟩ := keeps
  refine ⟨outside, head, cursor, waitStop, faults, sr1, stop, drTx, mode, mem, slots, fun h => ?future,
    fun h => ?enqueuing⟩
  case future =>
    obtain ⟨rs, ls, bs, rfl⟩ := exec_future_next h ran
    exact ⟨rfl, rfl, rfl, rfl⟩
  case enqueuing =>
    obtain ⟨cs, rfl⟩ := exec_enqueues_next h ran
    exact enqueue_blocked cs s

end Sys2Proof.HostOps
end

section
/-!
PROOFS. The cases of the EV handler and the operations they end in, as whole next states (rules R132 to R146).
-/

namespace Sys2Proof.Events

open Sys2Proof.Machine Sys2Proof.Safety Sys2Proof.Spec Sys2Proof.Encoding

/-! ### The end of a Command and of a transaction (rules R140, R141) -/

/-- Finalize is the end of the head transaction, but for the cursor, which it leaves. -/
theorem finalizeTo_eq (r : List Command) (s : State) :
    finalizeTo r s = { transactionOver (finalPhase (headPhase s)) r s with cursor := s.cursor } := by
  cases r <;> rfl

/-- Whatever phase that is no Fail was written to the head slot, the end of the transaction leaves Finished there. -/
theorem transactionOver_setHeadPhase {p : Phase} (open_ : phaseFailed p = false) (r : List Command) (s : State) :
    transactionOver (finalPhase (headPhase (setHeadPhase p s))) r (setHeadPhase p s) =
      transactionOver .finished r s := by
  have slots : (s.slots.set s.head p).set s.head (finalPhase (headPhase (setHeadPhase p s))) =
      s.slots.set s.head .finished := by
    rw [← finalPhase_of_not_failed open_]
    exact set_finalPhase s.slots s.head p
  cases r <;> simp [transactionOver, slots]

/-- The phase written before the next Command starts is written over by its Begin. -/
theorem commandOver_setHeadPhase (p : Phase) (d : DataCmd) (r : List Command) (s : State) :
    commandOver d r (setHeadPhase p s) = commandOver d r s := by
  simp [commandOver, List.set_set]

section

variable {s : State} {c d : DataCmd} {r : List Command}

/-- EndCommand with the NoOp next and no STOP done. -/
theorem endCommand_last (front : s.queue = .data c :: .noop :: r) :
    endCommand c false s =
      .next (transactionOver (finalPhase (headPhase s)) r { s with cr1 := { s.cr1 with stop := true } }) := by
  rw [endCommand_noop (r := r) (by rw [front, List.tail_cons]), finalizeTo_eq]
  cases r <;> rfl

/-- EndCommand with the NoOp next and the STOP done. -/
theorem endCommand_last_stopped (front : s.queue = .data c :: .noop :: r) :
    endCommand c true s = .next (transactionOver (finalPhase (headPhase s)) r s) := by
  rw [endCommand_noop (r := r) (by rw [front, List.tail_cons]), finalizeTo_eq]
  cases r <;> rfl

/-- EndCommand with the NoOp next leaves Finished, if the phase written before it is no Fail. -/
theorem endCommand_last_setHeadPhase {p : Phase} (open_ : phaseFailed p = false)
    (front : s.queue = .data c :: .noop :: r) :
    endCommand c false (setHeadPhase p s) =
      .next (transactionOver .finished r { s with cr1 := { s.cr1 with stop := true } }) :=
  (endCommand_last (s := setHeadPhase p s) front).trans
    (congrArg _ (transactionOver_setHeadPhase open_ r { s with cr1 := { s.cr1 with stop := true } }))

/-- EndCommand of a Write with a data Command next. -/
theorem endCommand_write_data (front : s.queue = .data c :: .data d :: r) (dir : c.dir = .write) (b : Bool) :
    endCommand c b s = .next (commandOver d r s) := by
  simp only [endCommand, front, List.tail_cons, dir]
  simp [commandOver, issueStart, setHeadPhase, setPhase, popCommand, front]

/-- EndCommand of a Write with a data Command next, after a phase was written. -/
theorem endCommand_write_setHeadPhase (front : s.queue = .data c :: .data d :: r) (dir : c.dir = .write) (p : Phase) :
    endCommand c false (setHeadPhase p s) = .next (commandOver d r s) :=
  (endCommand_write_data (s := setHeadPhase p s) front dir false).trans (congrArg _ (commandOver_setHeadPhase p d r s))

/-- EndCommand of a Read with a data Command next (rule R140). -/
theorem endCommand_read_data (front : s.queue = .data c :: .data d :: r) (dir : c.dir = .read) (b : Bool) :
    endCommand c b s =
      .next { s with queue := .data d :: r, cursor := 0, faults := { s.faults with readNotLast := true } } := by
  simp only [endCommand, front, List.tail_cons, dir]
  simp [setFault, popCommand, front]

end

/-- Settles O41, branch by branch. -/
theorem endCommandBranches : Obligations.EndCommandBranches :=
  fun _ _ _ _ => ⟨fun front => ⟨endCommand_last front, endCommand_last_stopped front⟩,
    fun front b => ⟨fun dir => endCommand_write_data front dir b, fun dir => endCommand_read_data front dir b⟩⟩

/-- Settles O42: CMD_NOOP is Finalize, which writes Finished over every phase but a Fail. -/
theorem noopIsFinalized : Obligations.NoopIsFinalized := by
  refine fun s => ⟨fun r front open_ => ?_, fun r e front failed => ?_⟩
  · have hopen : phaseFailed (headPhase s) = false := by
      cases h : headPhase s
      case fail e => exact absurd h (open_ e)
      all_goals rfl
    rw [← finalPhase_of_not_failed hopen, ← finalizeTo_eq]
    exact finalize_noop front
  · rw [show Phase.fail e = finalPhase (headPhase s) by rw [failed]; rfl, ← finalizeTo_eq]
    exact finalize_noop front

/-! ### The cases on the head data Command (rules R133 to R138) -/

/-- Settles O31: the head is a data Command, so the case runs. -/
theorem startBitSentWritesTheAddressByte : Obligations.StartBitSentWritesTheAddressByte :=
  fun _ _ _ front => exec_evSb_data front

/-- An address below `2^32` is one of caller memory (rule R8). -/
theorem isAddr_of_lt {a : Nat} (h : a < 2 ^ 32) : isAddr a = true := decide_eq_true h

section

variable {s : State} {c : DataCmd}

theorem transmitNext_of_room (room : s.cursor < c.buf.len.toNat) (inside : bufAddr c.buf s.cursor < 2 ^ 32) :
    transmitNext c s =
      .next { writeDr (memRead s.mem (bufAddr c.buf s.cursor)) s with cursor := s.cursor + 1 } := by
  rw [transmitNext, if_pos room, if_pos (isAddr_of_lt inside)]

theorem transmitNext_of_done (done : c.buf.len.toNat ≤ s.cursor) : transmitNext c s = endCommand c false s :=
  if_neg (Nat.not_lt.2 done)

theorem capture_of_room (f : State → State) (room : s.cursor < c.buf.len.toNat)
    (inside : bufAddr c.buf s.cursor < 2 ^ 32) : capture c f s = .next (f (storeReceived c s)) := by
  rw [capture, if_neg (Nat.not_le.2 room), if_pos (isAddr_of_lt inside)]

theorem capture_of_full (f : State → State) (full : c.buf.len.toNat ≤ s.cursor) :
    capture c f s = .next (setFault .rxOverflow s) :=
  if_pos full

end

/-- Settles O32: what a Write case transmits or ends after its phase and its flag are written. -/
theorem writeTransmitsTheNextByteOrEnds : Obligations.WriteTransmitsTheNextByteOrEnds := by
  intro s c r front dir
  obtain ⟨addr, btf⟩ := exec_evWrite_of_write front dir
  rw [addr, btf]
  exact ⟨fun done => ⟨transmitNext_of_done done, transmitNext_of_done done⟩,
    fun room inside => ⟨transmitNext_of_room room inside, transmitNext_of_room room inside⟩⟩

/-- Settles O33: no byte is left, so the Command ends, and with it the transaction. -/
theorem lastWriteByteEndsTheTransaction : Obligations.LastWriteByteEndsTheTransaction := by
  intro s c r front dir done
  obtain ⟨addr, btf⟩ := exec_evWrite_of_write front dir
  exact ⟨(addr.trans (transmitNext_of_done done)).trans (endCommand_last_setHeadPhase (s := clearAddr s) rfl front),
    (btf.trans (transmitNext_of_done done)).trans (endCommand_last_setHeadPhase (s := clearBtf s) rfl front)⟩

/-- Settles O34: no byte is left, so the Write ends, and the data Command behind it starts. -/
theorem writeThenReadRepeatsTheStart : Obligations.WriteThenReadRepeatsTheStart := by
  intro s c d r front dir done
  obtain ⟨addr, btf⟩ := exec_evWrite_of_write front dir
  exact ⟨(addr.trans (transmitNext_of_done done)).trans (endCommand_write_setHeadPhase (s := clearAddr s) front dir _),
    (btf.trans (transmitNext_of_done done)).trans (endCommand_write_setHeadPhase (s := clearBtf s) front dir _)⟩

section

variable {s : State} {c : DataCmd} {r : List Command} (front : s.queue = .data c :: r) (dir : c.dir = .read)
include front dir

theorem exec_evAddrRead_of_room (room : 0 < c.buf.len.toNat) :
    exec .evAddrRead s = .next (clearAddr (setHeadPhase .addressSend s)) := by
  simp only [exec, execEvAddrRead, onHead_data front, dir, if_neg room.ne']

theorem exec_evAddrRead_of_empty (empty : c.buf.len.toNat = 0) :
    exec .evAddrRead s = endCommand c false (clearAddr (setHeadPhase .addressSend s)) := by
  simp only [exec, execEvAddrRead, onHead_data front, dir, if_pos empty]

end

/-- Settles O35: an empty buffer ends the Read as it ends a Write. -/
theorem addressSentForARead : Obligations.AddressSentForARead := by
  intro s c r dir
  refine ⟨fun front room => exec_evAddrRead_of_room front dir room,
    fun front empty => exec_evAddrRead_of_empty front dir empty, fun front empty => ?_⟩
  exact (exec_evAddrRead_of_empty front dir empty).trans (endCommand_last_setHeadPhase (s := clearAddr s) rfl front)

/-! ### Received bytes (rules R137, R138, R145) -/

theorem beginReceive_eq (s : State) :
    beginReceive s = { s with
      slots := if headPhase s = .addressSend then s.slots.set s.head .byteProcessing else s.slots
      sr1 := { s.sr1 with btf := false } } := by
  unfold beginReceive
  split <;> rfl

/-- Settles O38: the buffer is full, so the capture is the fault. -/
theorem byteBeyondTheBufferOverflows : Obligations.ByteBeyondTheBufferOverflows := by
  intro s c r front dir full
  refine ⟨fun phase => ?_, fun phase => ?_⟩
  · rw [exec_evBtfRead_of_read front dir phase, beginReceive_eq]
    exact capture_of_full _ full
  · rw [exec_evBtfReadLast_of_read front dir phase]
    exact capture_of_full _ full

theorem nackLast_of_ne {c : DataCmd} {s : State} (h : s.cursor + 1 ≠ c.buf.len.toNat) : nackLast c s = s := if_neg h

theorem nackLast_of_eq {c : DataCmd} {s : State} (h : s.cursor + 1 = c.buf.len.toNat) :
    nackLast c s = setHeadPhase .lastByte (requestStop (dropAck s)) := if_pos h

/-- LastByte is written over whatever phase the head slot got when the reception began. -/
theorem set_lastByte (s : State) :
    (if headPhase s = .addressSend then s.slots.set s.head .byteProcessing else s.slots).set s.head .lastByte =
      s.slots.set s.head .lastByte := by
  split
  · exact List.set_set ..
  · rfl

/-- Settles O36: what EV_BTF_READ captures, and what follows the second-to-last byte. -/
theorem readCapturesAByte : Obligations.ReadCapturesAByte := by
  intro s c r front dir phase inside
  refine ⟨fun full => (byteBeyondTheBufferOverflows s c r front dir full).1 phase, fun room more => ?_, fun last => ?_⟩
  · rw [exec_evBtfRead_of_read front dir phase, beginReceive_eq]
    refine (capture_of_room _ ?_ ?_).trans (congrArg _ (nackLast_of_ne ?_))
    exacts [room, inside room, more]
  · have room : s.cursor < c.buf.len.toNat := by omega
    rw [exec_evBtfRead_of_read front dir phase, beginReceive_eq, ← set_lastByte]
    refine (capture_of_room _ ?_ ?_).trans (congrArg _ (nackLast_of_eq ?_))
    exacts [room, inside room, last]

/-- Settles O37: what EV_BTF_READ_LAST captures. -/
theorem lastReadByteStartsTheStopWait : Obligations.LastReadByteStartsTheStopWait := by
  intro s c r front dir phase
  refine ⟨fun room inside => ?_, fun full => (byteBeyondTheBufferOverflows s c r front dir full).2 phase⟩
  rw [exec_evBtfReadLast_of_read front dir phase]
  exact capture_of_room _ room inside

/-! ### The STOP wait (rule R139) and the entry (rules R130, R132, R146) -/

/-- Once `CR1.STOP` is 0 the STOP wait ends the head Command. -/
theorem runMove_stopWait_of_done {s : State} {c : DataCmd} {r : List Command} (waiting : s.waitStop = true)
    (done : s.cr1.stop = false) (front : s.queue = .data c :: r) :
    runMove .stopWait s = endCommand c true { s with waitStop := false } := by
  simp [runMove, runStopWait, endStopWait, waiting, done, front]

/-- Settles O39: the wait ends by EndCommand with the STOP done. -/
theorem stopWaitEndsTheRead : Obligations.StopWaitEndsTheRead := by
  intro s c r waiting
  refine ⟨fun stop => ?_, runMove_stopWait_of_done waiting, fun done front => ?_⟩
  · simp only [runMove, runStopWait, stop, Bool.not_true, Bool.and_false, Bool.false_eq_true, if_false]
  · rw [runMove_stopWait_of_done waiting done front]
    exact endCommand_last_stopped front

/-- With a NoOp at the head every case is the model fault (rule R146). -/
theorem onHead_noop {s : State} {r : List Command} (front : s.queue = .noop :: r)
    (run : DataCmd → Host.Outcome State Fault Refusal) : onHead s run = .next (setFault .noopAtHead s) := by
  simp only [onHead, front]

/-- The EV entry and the seven cases examine the head first (rules R130, R131, R146). -/
theorem exec_event {i : Instr} (event : isEvent i = true) (s : State) : ∃ run, exec i s = onHead s run := by
  cases i with
  | evIrq | evSb | evAddrWrite | evAddrRead | evBtfWrite | evBtfRead | evBtfReadLast | evNone => exact ⟨_, rfl⟩
  | _ => cases event

/-- The entry runs the case its flags select on the head data Command. -/
theorem exec_evIrq_data {s : State} {c : DataCmd} {r : List Command} (front : s.queue = .data c :: r) :
    exec .evIrq s = exec (selectEvt s.sr1 c.dir (decide (headPhase s = .lastByte))).instr s := by
  rw [exec_evCase]
  exact onHead_data front

/-- Without an event flag the entry selects EV_NONE (rules R87, R132). -/
theorem selectEvt_none {f : Sr1} (sb : f.sb = false) (addr : f.addr = false) (btf : f.btf = false) (dir : Direction)
    (last : Bool) : selectEvt f dir last = .none := by
  simp [selectEvt, sb, addr, btf]

/-- Settles O40, by what the entry selects and by the one thing every case does first. -/
theorem noEventAndNoopAtTheHead : Obligations.NoEventAndNoopAtTheHead := by
  intro s i
  refine ⟨fun c r front => ?_, fun r front event => ?_⟩
  · have none : exec .evNone s = .next s := onHead_data front
    refine ⟨none, fun sb addr btf => ?_⟩
    rw [exec_evIrq_data front, selectEvt_none sb addr btf]
    exact none
  · obtain ⟨run, ran⟩ := exec_event event s
    rw [ran, onHead_noop front]
    rfl

end Sys2Proof.Events
end

section
/-!
PROOFS. The handler entries as a whole: they complete in every sound state (rules R130, R170), and what an instruction
of the EV handler leaves unchanged (rules R131 to R141, R44, R48).
-/

namespace Sys2Proof.Events

open Sys2Proof.Machine Sys2Proof.Safety Sys2Proof.Spec Sys2Proof.Encoding

/-! ### Operations that complete -/

section

variable {s : State} {c : DataCmd} {r : List Command}

/-- A Command with another entry behind it can end. -/
theorem endCommand_completes (front : s.queue = .data c :: r) (more : r ≠ []) (b : Bool) :
    ∃ t, endCommand c b s = .next t := by
  cases r with
  | nil => exact absurd rfl more
  | cons k r =>
    cases k with
    | noop => exact ⟨_, endCommand_noop (by rw [front, List.tail_cons])⟩
    | data d =>
      cases dir : c.dir with
      | write => exact ⟨_, endCommand_write_data front dir b⟩
      | read => exact ⟨_, endCommand_read_data front dir b⟩

/-- A byte of a buffer in the address space has an address (rule R8). -/
theorem bufAddr_lt {b : Buf} {i : Nat} (space : b.base.toNat + b.len.toNat ≤ 2 ^ 32) (room : i < b.len.toNat) :
    bufAddr b i < 2 ^ 32 :=
  (Nat.add_lt_add_left room _).trans_le space

theorem transmitNext_completes (front : s.queue = .data c :: r) (more : r ≠ [])
    (space : c.buf.base.toNat + c.buf.len.toNat ≤ 2 ^ 32) : ∃ t, transmitNext c s = .next t := by
  by_cases room : s.cursor < c.buf.len.toNat
  · exact ⟨_, transmitNext_of_room room (bufAddr_lt space room)⟩
  · rw [transmitNext_of_done (Nat.not_lt.1 room)]
    exact endCommand_completes front more false

theorem capture_completes (space : c.buf.base.toNat + c.buf.len.toNat ≤ 2 ^ 32) (f : State → State) :
    ∃ t, capture c f s = .next t := by
  by_cases room : s.cursor < c.buf.len.toNat
  · exact ⟨_, capture_of_room f room (bufAddr_lt space room)⟩
  · exact ⟨_, capture_of_full f (Nat.not_lt.1 room)⟩

/-- The case the flags, the head's direction and its phase select completes (rule R87). -/
theorem selected_completes (front : s.queue = .data c :: r) (more : r ≠ [])
    (space : c.buf.base.toNat + c.buf.len.toNat ≤ 2 ^ 32) :
    ∃ t, exec (selectEvt s.sr1 c.dir (decide (headPhase s = .lastByte))).instr s = .next t := by
  unfold selectEvt
  cases s.sr1.sb with
  | true => exact ⟨_, exec_evSb_data front⟩
  | false =>
    cases s.sr1.addr with
    | true =>
      cases dir : c.dir with
      | write =>
        obtain ⟨t, ran⟩ := transmitNext_completes (s := clearAddr (setHeadPhase .addressSend s)) front more space
        exact ⟨t, (exec_evWrite_of_write front dir).1.trans ran⟩
      | read =>
        obtain empty | room := Nat.eq_zero_or_pos c.buf.len.toNat
        · obtain ⟨t, ran⟩ := endCommand_completes (s := clearAddr (setHeadPhase .addressSend s)) front more false
          exact ⟨t, (exec_evAddrRead_of_empty front dir empty).trans ran⟩
        · exact ⟨_, exec_evAddrRead_of_room front dir room⟩
    | false =>
      cases s.sr1.btf with
      | true =>
        cases dir : c.dir with
        | write =>
          obtain ⟨t, ran⟩ := transmitNext_completes (s := clearBtf (setHeadPhase .byteProcessing s)) front more space
          exact ⟨t, (exec_evWrite_of_write front dir).2.trans ran⟩
        | read =>
          by_cases last : headPhase s = .lastByte
          · obtain ⟨t, ran⟩ := capture_completes (s := clearBtf s) space beginStopWait
            rw [decide_eq_true last]
            exact ⟨t, (exec_evBtfReadLast_of_read front dir last).trans ran⟩
          · obtain ⟨t, ran⟩ := capture_completes (s := beginReceive s) space (nackLast c)
            rw [decide_eq_false last]
            exact ⟨t, (exec_evBtfRead_of_read front dir last).trans ran⟩
      | false => exact ⟨_, onHead_data front⟩

/-- Reporting an error completes: the head transaction has its NoOp (rules R36, R179, R180). -/
theorem reportError_completes (shape : wellGrouped s.queue = true) (k : ErCase) (e : BusError) :
    ∃ t, reportError k e s = .next t := by
  unfold reportError
  split
  · exact ⟨_, rfl⟩
  · exact ⟨_, rfl⟩
  · rename_i c r front
    obtain ⟨ds, r', hq, -, -⟩ := wellGrouped_split shape (by simp [front])
    exact ⟨_, failHead_group ((clearErr_queue k s).trans hq)⟩

/-- Whatever flag it finds, the ER entry completes. -/
theorem execErIrq_completes (shape : wellGrouped s.queue = true) : ∃ t, execErIrq s = .next t := by
  unfold execErIrq
  cases selectErr s.sr1
  case berr | none => exact ⟨_, rfl⟩
  all_goals exact reportError_completes shape _ _

end

/-- In legal shape a data Command has an entry behind it. -/
theorem ne_nil_of_wellGrouped {c : DataCmd} {r : List Command} (shape : wellGrouped (.data c :: r) = true) :
    r ≠ [] := by
  rintro rfl
  cases shape

/-- Settles O45: the case an entry selects is one that runs, and its queue has the NoOp it may need. -/
theorem handlerEntriesComplete : Obligations.HandlerEntriesComplete := by
  intro s inv space
  refine ⟨?event, ?error⟩
  case error =>
    obtain ⟨t, ran⟩ := execErIrq_completes inv.shape
    exact ⟨t, ran, (exec_erIrq s).symm.trans ran⟩
  case event =>
    cases front : s.queue with
    | nil => exact ⟨_, by rw [exec, execEvIrq, onHead, front], fun _ _ h => nomatch h⟩
    | cons k r =>
      cases k with
      | noop => exact ⟨_, onHead_noop front _, fun _ _ h => nomatch h⟩
      | data c =>
        have hmem : Command.data c ∈ s.queue := front ▸ List.mem_cons_self
        obtain ⟨t, ran⟩ := selected_completes front (ne_nil_of_wellGrouped (front ▸ inv.shape)) (space c hmem)
        refine ⟨t, (exec_evIrq_data front).trans ran, fun c' r' h => ?_⟩
        cases h
        exact ran

/-! ### What the EV handler leaves unchanged -/

/-- What every instruction of the EV handler keeps from `s` to `t`, memory apart. By default each field says that it
does not write the part it speaks of. -/
structure EventKeeps (s t : State) : Prop where
  outside : sameOutside s t := by and_intros <;> rfl
  tasks : sameTasks s t := by and_intros <;> rfl
  slots : ∀ j, j ≠ s.head → phaseAt t j = phaseAt s j := by exact fun _ _ => rfl
  timeout : t.sr1.timeout = s.sr1.timeout := by rfl
  pecerr : t.sr1.pecerr = s.sr1.pecerr := by rfl
  ovr : t.sr1.ovr = s.sr1.ovr := by rfl
  af : t.sr1.af = s.sr1.af := by rfl
  arlo : t.sr1.arlo = s.sr1.arlo := by rfl
  berr : t.sr1.berr = s.sr1.berr := by rfl

section

variable {s u t : State} {c : DataCmd} {r : List Command}

theorem sameOutside_trans (h : sameOutside s u) (k : sameOutside u t) : sameOutside s t := by
  unfold sameOutside at *
  simp_all only [and_self]

theorem sameTasks_trans (h : sameTasks s u) (k : sameTasks u t) : sameTasks s t := by
  unfold sameTasks at *
  simp_all only [and_self]

/-- Two updates in turn, the first of which leaves `head`. -/
theorem EventKeeps.trans (h : EventKeeps s u) (head : u.head = s.head) (k : EventKeeps u t) : EventKeeps s t where
  outside := sameOutside_trans h.outside k.outside
  tasks := sameTasks_trans h.tasks k.tasks
  slots := fun j hj => (k.slots j (head ▸ hj)).trans (h.slots j hj)
  timeout := k.timeout.trans h.timeout
  pecerr := k.pecerr.trans h.pecerr
  ovr := k.ovr.trans h.ovr
  af := k.af.trans h.af
  arlo := k.arlo.trans h.arlo
  berr := k.berr.trans h.berr

theorem eventKeeps_setHeadPhase (p : Phase) (s : State) : EventKeeps s (setHeadPhase p s) where
  slots := fun _ hj => phaseAt_of_set_ne (setHeadPhase_slots p s) hj.symm

theorem eventKeeps_setFault (f : ModelFault) (s : State) : EventKeeps s (setFault f s) := by
  cases f <;> exact {}

theorem eventKeeps_clearTopEvent (s : State) : EventKeeps s (clearTopEvent s) := by
  unfold clearTopEvent
  repeat' split
  all_goals exact {}

theorem eventKeeps_beginReceive (s : State) : EventKeeps s (beginReceive s) := by
  unfold beginReceive
  split
  · exact EventKeeps.trans (u := clearBtf s) {} rfl (eventKeeps_setHeadPhase .byteProcessing _)
  · exact {}

theorem eventKeeps_nackLast (c : DataCmd) (s : State) : EventKeeps s (nackLast c s) := by
  unfold nackLast
  split
  · exact EventKeeps.trans (u := requestStop (dropAck s)) {} rfl (eventKeeps_setHeadPhase .lastByte _)
  · exact {}

/-- Finalize writes the head slot before `head` moves on (rule R141). -/
theorem eventKeeps_finalizeTo (r : List Command) (s : State) : EventKeeps s (finalizeTo r s) := by
  have slots (j : Nat) (hj : j ≠ s.head) : phaseAt (finalizeTo r s) j = phaseAt s j :=
    phaseAt_of_set_ne (finalizeTo_slots r s) hj.symm
  cases r with
  | nil => exact { slots }
  | cons k r => exact { slots }

@[simp] theorem beginReceive_head (s : State) : (beginReceive s).head = s.head := by
  unfold beginReceive; split <;> rfl
@[simp] theorem nackLast_head (c : DataCmd) (s : State) : (nackLast c s).head = s.head := by
  unfold nackLast; split <;> rfl

/-- However a Command ends (rule R140). -/
theorem eventKeeps_endCommand {b : Bool} (h : endCommand c b s = .next t) : EventKeeps s t := by
  rcases endCommand_next h with ⟨r, -, rfl⟩ | ⟨d, r, -, -, rfl⟩ | ⟨d, r, -, -, rfl⟩
  · cases b with
    | true => exact EventKeeps.trans (u := popCommand s) {} rfl (eventKeeps_finalizeTo r _)
    | false => exact EventKeeps.trans (u := requestStop (popCommand s)) {} rfl (eventKeeps_finalizeTo r _)
  · exact EventKeeps.trans (u := popCommand s) {} rfl (eventKeeps_setFault .readNotLast _)
  · have begun := EventKeeps.trans (s := s) (u := popCommand s) {} rfl (eventKeeps_setHeadPhase .begin _)
    exact begun.trans rfl {}

theorem eventKeeps_transmitNext (h : transmitNext c s = .next t) : EventKeeps s t := by
  rcases transmitNext_next h with ⟨-, -, rfl⟩ | ⟨-, hend⟩
  · exact {}
  · exact eventKeeps_endCommand hend

/-- What a case on the head Command `c` did, with memory: only the two that capture may write it, a Read's at the
cursor (rules R137, R138). -/
structure CaseKeeps (s : State) (c : DataCmd) (k : EvCase) (t : State) : Prop extends EventKeeps s t where
  mem : t.mem = s.mem ∨ (k = .btfRead ∨ k = .btfReadLast) ∧ c.dir = .read ∧
    ∃ v, t.mem = memWrite s.mem (bufAddr c.buf s.cursor) v

/-- A capture between updates that leave `head`, cursor and memory. -/
theorem caseKeeps_capture {k : EvCase} {f : State → State} (dir : c.dir = .read)
    (case_ : k = .btfRead ∨ k = .btfReadLast) (before : EventKeeps s u) (head : u.head = s.head)
    (cursor : u.cursor = s.cursor) (mem : u.mem = s.mem) (after : ∀ v, EventKeeps v (f v))
    (afterMem : ∀ v, (f v).mem = v.mem) (h : capture c f u = .next t) : CaseKeeps s c k t := by
  rcases capture_next h with ⟨-, rfl⟩ | ⟨-, -, rfl⟩
  · exact { before.trans head (eventKeeps_setFault .rxOverflow u) with mem := .inl mem }
  · have stored : EventKeeps s (storeReceived c u) := before.trans head {}
    exact { stored.trans head (after _) with
      mem := .inr ⟨case_, dir, u.drRx, by rw [afterMem, storeReceived_mem, mem, cursor]⟩ }

/-- A case of the EV handler that gives a next state on the head data Command. -/
theorem caseKeeps_runEvCase (front : s.queue = .data c :: r) (k : EvCase) (h : exec k.instr s = .next t) :
    CaseKeeps s c k t := by
  have send : EventKeeps s (clearAddr (setHeadPhase .addressSend s)) :=
    (eventKeeps_setHeadPhase .addressSend s).trans rfl {}
  have byte : EventKeeps s (clearBtf (setHeadPhase .byteProcessing s)) :=
    (eventKeeps_setHeadPhase .byteProcessing s).trans rfl {}
  cases k
  case sb =>
    cases (exec_evSb_data front).symm.trans h
    exact { (eventKeeps_setHeadPhase .startGenerated s).trans rfl {} with mem := .inl rfl }
  case none =>
    cases (onHead_data front).symm.trans h
    exact { mem := .inl rfl }
  case addrWrite =>
    cases dir : c.dir with
    | write =>
      have ran := (exec_evWrite_of_write front dir).1.symm.trans h
      have mem := transmitNext_mem ran
      exact { send.trans rfl (eventKeeps_transmitNext ran) with mem := .inl mem }
    | read => cases (exec_evWrite_of_read front dir).1.symm.trans h
  case btfWrite =>
    cases dir : c.dir with
    | write =>
      have ran := (exec_evWrite_of_write front dir).2.symm.trans h
      have mem := transmitNext_mem ran
      exact { byte.trans rfl (eventKeeps_transmitNext ran) with mem := .inl mem }
    | read => cases (exec_evWrite_of_read front dir).2.symm.trans h
  case addrRead =>
    cases dir : c.dir with
    | write => cases (exec_evRead_of_write front dir).1.symm.trans h
    | read =>
      obtain empty | room := Nat.eq_zero_or_pos c.buf.len.toNat
      · have ran := (exec_evAddrRead_of_empty front dir empty).symm.trans h
        have mem := endCommand_mem ran
        exact { send.trans rfl (eventKeeps_endCommand ran) with mem := .inl mem }
      · cases (exec_evAddrRead_of_room front dir room).symm.trans h
        exact { send with mem := .inl rfl }
  case btfRead =>
    cases dir : c.dir with
    | write => cases (exec_evRead_of_write front dir).2.1.symm.trans h
    | read =>
      by_cases last : headPhase s = .lastByte
      · cases (exec_evBtfRead_of_lastByte front last).symm.trans h
      · exact caseKeeps_capture dir (.inl rfl) (eventKeeps_beginReceive s) (beginReceive_head s) (beginReceive_cursor s)
          (beginReceive_mem s) (eventKeeps_nackLast c) (nackLast_mem c)
          ((exec_evBtfRead_of_read front dir last).symm.trans h)
  case btfReadLast =>
    cases dir : c.dir with
    | write => cases (exec_evRead_of_write front dir).2.2.symm.trans h
    | read =>
      by_cases last : headPhase s = .lastByte
      · exact caseKeeps_capture (u := clearBtf s) dir (.inr rfl) {} rfl rfl rfl (fun _ => {}) beginStopWait_mem
          ((exec_evBtfReadLast_of_read front dir last).symm.trans h)
      · cases (exec_evBtfReadLast_of_not_lastByte front last).symm.trans h

/-- The entry is the case it selects; every other row of the EV handler is a case. -/
theorem event_case {i : Instr} (event : isEvent i = true) (front : s.queue = .data c :: r) :
    ∃ k : EvCase, exec i s = exec k.instr s ∧ (i = k.instr ∨ i = .evIrq) := by
  cases i with
  | evIrq => exact ⟨_, exec_evIrq_data front, .inr rfl⟩
  | evSb => exact ⟨.sb, rfl, .inl rfl⟩
  | evAddrWrite => exact ⟨.addrWrite, rfl, .inl rfl⟩
  | evAddrRead => exact ⟨.addrRead, rfl, .inl rfl⟩
  | evBtfWrite => exact ⟨.btfWrite, rfl, .inl rfl⟩
  | evBtfRead => exact ⟨.btfRead, rfl, .inl rfl⟩
  | evBtfReadLast => exact ⟨.btfReadLast, rfl, .inl rfl⟩
  | evNone => exact ⟨.none, rfl, .inl rfl⟩
  | _ => cases event

end

/-- What an instruction of the EV handler did to memory. -/
inductive EventMem (i : Instr) (s t : State) : Prop where
  | same (mem : t.mem = s.mem)
  | captured (c : DataCmd) (r : List Command) (v : Byte) (front : s.queue = .data c :: r) (dir : c.dir = .read)
      (row : i = .evBtfRead ∨ i = .evBtfReadLast ∨ i = .evIrq) (mem : t.mem = memWrite s.mem (bufAddr c.buf s.cursor) v)

/-- An instruction of the EV handler that gives a next state: EV_IDLE, the NoOp fault, or a case on the head. -/
theorem event_keeps {s t : State} {i : Instr} (event : isEvent i = true) (h : exec i s = .next t) :
    EventKeeps s t ∧ EventMem i s t := by
  obtain ⟨run, ran⟩ := exec_event event s
  rcases onHead_next (ran.symm.trans h) with ⟨-, rfl⟩ | ⟨r, -, rfl⟩ | ⟨c, r, front, -⟩
  · exact ⟨eventKeeps_clearTopEvent s, .same (clearTopEvent_mem s)⟩
  · exact ⟨eventKeeps_setFault .noopAtHead s, .same (setFault_mem .noopAtHead s)⟩
  · obtain ⟨k, same, row⟩ := event_case event front
    have keeps := caseKeeps_runEvCase front k (same.symm.trans h)
    refine ⟨keeps.toEventKeeps, ?_⟩
    obtain mem | ⟨case_, dir, v, mem⟩ := keeps.mem
    · exact .same mem
    · refine .captured c r v front dir ?_ mem
      obtain rfl | rfl := case_
      · exact row.imp id .inr
      · exact .inr row

/-- Settles O46: every update an EV case is made of keeps to the head slot and the event flags, and a capture writes the
byte at the cursor. -/
theorem eventFrame : Obligations.EventFrame := by
  intro s t i event h
  obtain ⟨⟨outside, tasks, slots, timeout, pecerr, ovr, af, arlo, berr⟩, mem⟩ := event_keeps event h
  refine ⟨outside, tasks, slots, timeout, pecerr, ovr, af, arlo, berr, ?_⟩
  cases mem with
  | same mem => exact ⟨fun _ _ _ _ _ => by rw [mem], fun _ => mem, fun _ => mem⟩
  | captured c r v front dir row mem =>
    refine ⟨fun c' r' front' a ha => ?_, fun writes => ?_, fun ⟨notRead, notLast, notEntry⟩ => ?_⟩
    · cases front.symm.trans front'
      rw [mem, memRead_memWrite_of_ne s.mem v ha]
    · cases dir.symm.trans (writes c r front)
    · obtain rfl | rfl | rfl := row
      · exact absurd rfl notRead
      · exact absurd rfl notLast
      · exact absurd rfl notEntry

end Sys2Proof.Events
end

section
/-!
PROOFS. The head Command on the well-behaved reference bus: `headCalm` read as one of thirteen stages, and what each bus
step does to a stage (rules R133 to R139, R149, R203 to R207).
-/

namespace Sys2Proof.Safety

open Sys2Proof.Machine

/-! ### Stages -/

/-- The signals between engine and bus: a requested START, the three event flags and the NACK flag. -/
structure Signals (s : State) (start sb addr btf af : Bool) : Prop where
  start : s.cr1.start = start
  sb : s.sr1.sb = sb
  addr : s.sr1.addr = addr
  btf : s.sr1.btf = btf
  af : s.sr1.af = af

/-- The phases in which data bytes are moved. -/
def MovingPhase (p : Phase) : Prop := p = .addressSend ∨ p = .byteProcessing

/-- The bus at rest with no byte received. -/
def Resting (s : State) : Prop := s.mode = .idle ∨ s.mode = .txIdle

/-- The STOP of a Read is still requested, or has been sent (rule R207). -/
def StopSent (s : State) : Prop := (s.mode = .rxDone ∧ s.cr1.stop = true) ∨ (s.mode = .idle ∧ s.cr1.stop = false)

/-- Where the head Command `c` stands between its START and its end. -/
inductive Stage (c : DataCmd) (s : State) : Prop where
  /-- A START is requested. -/
  | requested (signals : Signals s true false false false false) (mode : Resting s) (idle : s.waitStop = false)
      (phase : headPhase s = .begin) (cursor : s.cursor = 0) (ack : s.cr1.ack = true)
  /-- The START is on the wire. -/
  | started (signals : Signals s false true false false false) (mode : s.mode = .addrPending)
      (idle : s.waitStop = false) (phase : headPhase s = .begin) (cursor : s.cursor = 0) (ack : s.cr1.ack = true)
      (stop : s.cr1.stop = false)
  /-- The address byte is in flight. -/
  | addressing (signals : Signals s false false false false false)
      (mode : s.mode = .addrInFlight (addrByte c.addr c.dir)) (idle : s.waitStop = false)
      (phase : headPhase s = .startGenerated) (cursor : s.cursor = 0) (ack : s.cr1.ack = true)
      (stop : s.cr1.stop = false)
  /-- The address byte of a Write was acknowledged. -/
  | addressedWrite (signals : Signals s false false true false false) (mode : s.mode = .txIdle)
      (idle : s.waitStop = false) (phase : headPhase s = .startGenerated) (cursor : s.cursor = 0)
      (ack : s.cr1.ack = true) (stop : s.cr1.stop = false) (dir : c.dir = .write)
  /-- The address byte of a Read was acknowledged. -/
  | addressedRead (signals : Signals s false false true false false) (mode : s.mode = .rx)
      (idle : s.waitStop = false) (phase : headPhase s = .startGenerated) (cursor : s.cursor = 0)
      (ack : s.cr1.ack = true) (stop : s.cr1.stop = false) (dir : c.dir = .read)
  /-- The address byte was not acknowledged. -/
  | addressRefused (signals : Signals s false false false false true) (mode : s.mode = .idle)
      (idle : s.waitStop = false) (phase : headPhase s = .startGenerated) (cursor : s.cursor = 0)
      (ack : s.cr1.ack = true) (stop : s.cr1.stop = false)
  /-- A byte of a Write is in flight. -/
  | sending (b : Byte) (signals : Signals s false false false false false) (mode : s.mode = .txInFlight b)
      (idle : s.waitStop = false) (phase : MovingPhase (headPhase s)) (cursor : 0 < s.cursor) (ack : s.cr1.ack = true)
      (stop : s.cr1.stop = false) (dir : c.dir = .write)
  /-- A byte of a Write was acknowledged. -/
  | sent (signals : Signals s false false false true false) (mode : s.mode = .txIdle) (idle : s.waitStop = false)
      (phase : MovingPhase (headPhase s)) (cursor : 0 < s.cursor) (ack : s.cr1.ack = true) (stop : s.cr1.stop = false)
      (dir : c.dir = .write)
  /-- A byte of a Write was not acknowledged. -/
  | byteRefused (signals : Signals s false false false false true) (mode : s.mode = .idle) (idle : s.waitStop = false)
      (phase : MovingPhase (headPhase s)) (cursor : 0 < s.cursor) (ack : s.cr1.ack = true) (stop : s.cr1.stop = false)
      (dir : c.dir = .write)
  /-- Bytes of a Read are awaited, more than one of them; one may have come. -/
  | receiving (btf : Bool) (signals : Signals s false false false btf false) (mode : s.mode = .rx)
      (idle : s.waitStop = false) (phase : MovingPhase (headPhase s)) (cursor : s.cursor + 1 < c.buf.len.toNat)
      (ack : s.cr1.ack = true) (stop : s.cr1.stop = false) (dir : c.dir = .read)
  /-- The last byte of a Read is awaited. -/
  | lastAwaited (signals : Signals s false false false false false) (mode : s.mode = .rx) (idle : s.waitStop = false)
      (phase : headPhase s = .lastByte) (cursor : s.cursor + 1 = c.buf.len.toNat) (ack : s.cr1.ack = false)
      (stop : s.cr1.stop = true) (dir : c.dir = .read)
  /-- The last byte of a Read has come. -/
  | lastReceived (signals : Signals s false false false true false) (mode : StopSent s) (idle : s.waitStop = false)
      (phase : headPhase s = .lastByte) (cursor : s.cursor + 1 = c.buf.len.toNat) (ack : s.cr1.ack = false)
      (dir : c.dir = .read)
  /-- The EV handler waits for the STOP. -/
  | stopping (signals : Signals s false false false false false) (mode : StopSent s) (waiting : s.waitStop = true)
      (phase : headPhase s = .lastByte) (cursor : s.cursor = c.buf.len.toNat) (dir : c.dir = .read)

theorem restingMode_iff {s : State} : restingMode s.mode = true ↔ Resting s := by simp [restingMode, Resting]

theorem transmitting_iff {m : BusMode} : transmitting m = true ↔ ∃ b, m = .txInFlight b := by
  cases m <;> simp [transmitting]

section

variable {c : DataCmd} {s : State}

/-- The stages of a Command whose data bytes are moved. -/
theorem stage_of_moving (idle : s.waitStop = false) (phase : MovingPhase (headPhase s)) (ack : s.cr1.ack = true)
    (start : s.cr1.start = false) (stop : s.cr1.stop = false) (sb : s.sr1.sb = false) (addr : s.sr1.addr = false)
    (h : headCalm.moving c s) : Stage c s := by
  unfold headCalm.moving at h
  split at h
  case h_1 dir =>
    obtain ⟨cursor, ⟨btf, af, mode⟩ | ⟨btf, af, mode⟩ | ⟨btf, af, mode⟩⟩ := h
    · obtain ⟨b, mode⟩ := transmitting_iff.1 mode
      exact .sending b ⟨start, sb, addr, btf, af⟩ mode idle phase cursor ack stop dir
    · exact .sent ⟨start, sb, addr, btf, af⟩ mode idle phase cursor ack stop dir
    · exact .byteRefused ⟨start, sb, addr, btf, af⟩ mode idle phase cursor ack stop dir
  case h_2 dir =>
    obtain ⟨cursor, af, mode⟩ := h
    exact .receiving _ ⟨start, sb, addr, rfl, af⟩ mode idle phase cursor ack stop dir

/-- What `headCalm` ties together is one of the stages. -/
theorem stage_of_headCalm (h : headCalm c s) : Stage c s := by
  unfold headCalm at h
  split at h
  · rename_i waiting
    obtain ⟨dir, phase, cursor, start, sb, addr, btf, af, mode⟩ := h
    exact .stopping ⟨start, sb, addr, btf, af⟩ mode waiting phase cursor dir
  · rename_i idle
    replace idle := Bool.eq_false_of_not_eq_true idle
    split at h
    case h_1 phase =>
      obtain ⟨cursor, ack, addr, btf, af, ⟨sb, start, mode⟩ | ⟨sb, start, stop, mode⟩⟩ := h
      · exact .requested ⟨start, sb, addr, btf, af⟩ (restingMode_iff.1 mode) idle phase cursor ack
      · exact .started ⟨start, sb, addr, btf, af⟩ mode idle phase cursor ack stop
    case h_2 phase =>
      obtain ⟨cursor, ack, start, stop, sb, btf, ⟨addr, af, mode⟩ | ⟨addr, af, mode⟩ | ⟨addr, af, mode⟩⟩ := h
      · exact .addressing ⟨start, sb, addr, btf, af⟩ mode idle phase cursor ack stop
      · cases dir : c.dir with
        | write =>
          rw [dir] at mode
          exact .addressedWrite ⟨start, sb, addr, btf, af⟩ mode idle phase cursor ack stop dir
        | read =>
          rw [dir] at mode
          exact .addressedRead ⟨start, sb, addr, btf, af⟩ mode idle phase cursor ack stop dir
      · exact .addressRefused ⟨start, sb, addr, btf, af⟩ mode idle phase cursor ack stop
    case h_3 phase =>
      obtain ⟨ack, start, stop, sb, addr, moving⟩ := h
      exact stage_of_moving idle (.inl phase) ack start stop sb addr moving
    case h_4 phase =>
      obtain ⟨ack, start, stop, sb, addr, moving⟩ := h
      exact stage_of_moving idle (.inr phase) ack start stop sb addr moving
    case h_5 phase =>
      obtain ⟨dir, cursor, ack, start, sb, addr, af, ⟨btf, mode, stop⟩ | ⟨btf, bus⟩ | ⟨btf, bus⟩⟩ := h
      · exact .lastAwaited ⟨start, sb, addr, btf, af⟩ mode idle phase cursor ack stop dir
      · exact .lastReceived ⟨start, sb, addr, btf, af⟩ (.inl bus) idle phase cursor ack dir
      · exact .lastReceived ⟨start, sb, addr, btf, af⟩ (.inr bus) idle phase cursor ack dir
    case h_6 => exact h.elim
    case h_7 => exact h.elim

/-- A Command whose data bytes are moved is calm. -/
theorem headCalm_of_moving (idle : s.waitStop = false) (phase : MovingPhase (headPhase s)) (ack : s.cr1.ack = true)
    (start : s.cr1.start = false) (stop : s.cr1.stop = false) (sb : s.sr1.sb = false) (addr : s.sr1.addr = false)
    (h : headCalm.moving c s) : headCalm c s := by
  obtain phase | phase := phase
  · simp [headCalm, idle, phase, ack, start, stop, sb, addr, h]
  · simp [headCalm, idle, phase, ack, start, stop, sb, addr, h]

/-- Every stage is calm. -/
theorem headCalm_of_stage (h : Stage c s) : headCalm c s := by
  cases h with
  | requested signals mode idle phase cursor ack =>
    obtain ⟨start, sb, addr, btf, af⟩ := signals
    simp [headCalm, idle, phase, cursor, ack, start, sb, addr, btf, af, restingMode_iff.2 mode]
  | started signals mode idle phase cursor ack stop =>
    obtain ⟨start, sb, addr, btf, af⟩ := signals
    simp [headCalm, idle, phase, cursor, ack, start, sb, addr, btf, af, stop, mode]
  | addressing signals mode idle phase cursor ack stop | addressRefused signals mode idle phase cursor ack stop =>
    obtain ⟨start, sb, addr, btf, af⟩ := signals
    simp [headCalm, idle, phase, cursor, ack, start, sb, addr, btf, af, stop, mode]
  | addressedWrite signals mode idle phase cursor ack stop dir
  | addressedRead signals mode idle phase cursor ack stop dir =>
    obtain ⟨start, sb, addr, btf, af⟩ := signals
    simp [headCalm, addressedMode, idle, phase, cursor, ack, start, sb, addr, btf, af, stop, mode, dir]
  | sending b signals mode idle phase cursor ack stop dir =>
    obtain ⟨start, sb, addr, btf, af⟩ := signals
    exact headCalm_of_moving idle phase ack start stop sb addr
      (by simp [headCalm.moving, transmitting, dir, cursor, btf, af, mode])
  | sent signals mode idle phase cursor ack stop dir | byteRefused signals mode idle phase cursor ack stop dir =>
    obtain ⟨start, sb, addr, btf, af⟩ := signals
    exact headCalm_of_moving idle phase ack start stop sb addr (by simp [headCalm.moving, dir, cursor, btf, af, mode])
  | receiving btf signals mode idle phase cursor ack stop dir =>
    obtain ⟨start, sb, addr, -, af⟩ := signals
    exact headCalm_of_moving idle phase ack start stop sb addr (by simp [headCalm.moving, dir, cursor, af, mode])
  | lastAwaited signals mode idle phase cursor ack stop dir =>
    obtain ⟨start, sb, addr, btf, af⟩ := signals
    simp [headCalm, idle, phase, cursor, ack, start, sb, addr, btf, af, stop, mode, dir]
  | lastReceived signals mode idle phase cursor ack dir =>
    obtain ⟨start, sb, addr, btf, af⟩ := signals
    obtain ⟨mode, stop⟩ | ⟨mode, stop⟩ := mode
    all_goals simp [headCalm, idle, phase, cursor, ack, start, sb, addr, btf, af, stop, mode, dir]
  | stopping signals mode waiting phase cursor dir =>
    obtain ⟨start, sb, addr, btf, af⟩ := signals
    simp only [headCalm, waiting, if_true]
    exact ⟨dir, phase, cursor, start, sb, addr, btf, af, mode⟩

/-! ### Bus steps on the head Command

A step that is enabled leaves only the stages it can be taken from: the signals or the mode exclude the others. -/

/-- The START step: only a requested START is taken up (rule R203). -/
theorem Stage.busStart (h : Stage c s) : Stage c (busStart s) := by
  unfold Machine.busStart
  split
  · rename_i enabled
    simp only [startEnabled, Bool.and_eq_true, Bool.not_eq_true'] at enabled
    obtain ⟨⟨start, stop⟩, -⟩ := enabled
    cases h with
    | requested signals mode idle phase cursor ack =>
      exact .started ⟨rfl, rfl, signals.addr, signals.btf, signals.af⟩ rfl idle phase cursor ack stop
    | started signals | addressing signals | addressedWrite signals | addressedRead signals | addressRefused signals
    | sending _ signals | sent signals | byteRefused signals | receiving _ signals | lastAwaited signals
    | lastReceived signals | stopping signals =>
      exact nomatch signals.start.symm.trans start
  · exact h

/-- Bit 0 of the address byte tells a Read (rule R82). -/
theorem addrByte_bit_zero (a : Byte) (d : Direction) : (addrByte a d).getLsbD 0 = decide (d = .read) := by
  cases d <;> simp [addrByte]

/-- The address step: only an address byte in flight is answered (rule R204). -/
theorem Stage.busAddress (h : Stage c s) (ack : Bool) : Stage c (busAddress ack s) := by
  unfold Machine.busAddress
  split
  · rename_i b inFlight
    cases h with
    | addressing signals mode idle phase cursor nack stop =>
      obtain ⟨start, sb, addr, btf, af⟩ := signals
      obtain rfl : addrByte c.addr c.dir = b := BusMode.addrInFlight.inj (mode.symm.trans inFlight)
      cases ack with
      | true =>
        rw [if_pos rfl, addrByte_bit_zero]
        cases dir : c.dir with
        | write => exact .addressedWrite ⟨start, sb, rfl, btf, af⟩ rfl idle phase cursor nack stop dir
        | read => exact .addressedRead ⟨start, sb, rfl, btf, af⟩ rfl idle phase cursor nack stop dir
      | false => exact .addressRefused ⟨start, sb, addr, btf, rfl⟩ rfl idle phase cursor nack stop
    | _ => simp_all [Resting, StopSent]
  · exact h

/-- The transmit step: only a byte of a Write in flight is answered (rule R205). -/
theorem Stage.busTransmit (h : Stage c s) (ack : Bool) : Stage c (busTransmit ack s) := by
  unfold Machine.busTransmit
  split
  · rename_i b inFlight
    cases h with
    | sending b' signals mode idle phase cursor nack stop dir =>
      obtain ⟨start, sb, addr, btf, af⟩ := signals
      cases ack with
      | true => exact .sent ⟨start, sb, addr, rfl, af⟩ rfl idle phase cursor nack stop dir
      | false => exact .byteRefused ⟨start, sb, addr, btf, rfl⟩ rfl idle phase cursor nack stop dir
    | _ => simp_all [Resting, StopSent]
  · exact h

/-- The receive step: a byte of a Read is acknowledged and the bus goes on, or it is the last (rule R206). -/
theorem Stage.busReceive (h : Stage c s) (b : Byte) : Stage c (busReceive b s) := by
  unfold Machine.busReceive
  split
  · rename_i enabled
    simp only [receiveEnabled, Bool.and_eq_true, Bool.not_eq_true', decide_eq_true_eq] at enabled
    obtain ⟨⟨rx, noAddr⟩, noBtf⟩ := enabled
    cases h with
    | receiving btf signals mode idle phase cursor ack stop dir =>
      obtain ⟨start, sb, addr, -, af⟩ := signals
      exact .receiving true ⟨start, sb, addr, rfl, af⟩ (by simp [ack, stop]) idle phase cursor ack stop dir
    | lastAwaited signals mode idle phase cursor ack stop dir =>
      obtain ⟨start, sb, addr, -, af⟩ := signals
      exact .lastReceived ⟨start, sb, addr, rfl, af⟩ (.inl ⟨by simp [ack], stop⟩) idle phase cursor ack dir
    | addressedRead signals => exact nomatch signals.addr.symm.trans noAddr
    | _ => simp_all [Resting, StopSent]
  · exact h

/-- The STOP step: before a requested START, or at the end of a Read (rules R207, R208). -/
theorem Stage.busStop (h : Stage c s) : Stage c (busStop s) := by
  unfold Machine.busStop
  split
  · rename_i enabled
    simp only [stopEnabled, Bool.and_eq_true] at enabled
    obtain ⟨requestedStop, atRest⟩ := enabled
    cases h with
    | requested signals mode idle phase cursor ack =>
      obtain ⟨start, sb, addr, btf, af⟩ := signals
      exact .requested ⟨start, sb, addr, btf, af⟩ (.inl rfl) idle phase cursor ack
    | lastReceived signals mode idle phase cursor ack dir =>
      obtain ⟨start, sb, addr, btf, af⟩ := signals
      exact .lastReceived ⟨start, sb, addr, btf, af⟩ (.inr ⟨rfl, rfl⟩) idle phase cursor ack dir
    | stopping signals mode waiting phase cursor dir =>
      obtain ⟨start, sb, addr, btf, af⟩ := signals
      exact .stopping ⟨start, sb, addr, btf, af⟩ (.inr ⟨rfl, rfl⟩) waiting phase cursor dir
    | lastAwaited _ mode => simp [mode, busResting] at atRest
    | _ => simp_all
  · exact h

/-- A calm move of the reference bus is one of its five own steps: no injected fault, and nothing of the permissive
environment (rules R200, R211). -/
theorem busStep_calm {P : State → Prop} {b : BusMove} (ok : calmMove (.bus b) = true)
    (reference : s.params.bus = .reference) (start : P (busStart s)) (address : ∀ ack, P (busAddress ack s))
    (transmit : ∀ ack, P (busTransmit ack s)) (receive : ∀ b, P (busReceive b s)) (stop : P (busStop s)) :
    P (busStep b s) := by
  unfold busStep
  rw [reference]
  cases b with
  | start => exact start
  | address ack => exact address ack
  | transmit ack => exact transmit ack
  | receive b => exact receive b
  | stop => exact stop
  | permissive | inject => cases ok

/-- A calm move of the reference bus takes the head Command from stage to stage. -/
theorem Stage.busStep (h : Stage c s) {b : BusMove} (ok : calmMove (.bus b) = true)
    (reference : s.params.bus = .reference) : Stage c (busStep b s) :=
  busStep_calm ok reference h.busStart h.busAddress h.busTransmit h.busReceive h.busStop

/-! ### The bus with no Command on the wire -/

theorem idleCalm_iff : idleCalm s ↔ Signals s false false false false false ∧ Resting s := by
  unfold idleCalm
  rw [restingMode_iff]
  exact ⟨fun ⟨start, sb, addr, btf, af, mode⟩ => ⟨⟨start, sb, addr, btf, af⟩, mode⟩,
    fun ⟨⟨start, sb, addr, btf, af⟩, mode⟩ => ⟨start, sb, addr, btf, af, mode⟩⟩

/-- On an idle bus only a requested STOP is taken up. -/
theorem idleCalm_busStep (h : idleCalm s) {b : BusMove} (ok : calmMove (.bus b) = true)
    (reference : s.params.bus = .reference) : idleCalm (busStep b s) := by
  obtain ⟨⟨start, sb, addr, btf, af⟩, mode⟩ := idleCalm_iff.1 h
  refine busStep_calm ok reference ?start (fun ack => ?address) (fun ack => ?transmit) (fun b => ?receive) ?stop
  case start =>
    have disabled : startEnabled s = false := by simp [startEnabled, start]
    rwa [busStart, if_neg (ne_true_of_eq_false disabled)]
  case address => obtain mode | mode := mode <;> simpa only [busAddress, mode] using h
  case transmit => obtain mode | mode := mode <;> simpa only [busTransmit, mode] using h
  case receive =>
    have disabled : receiveEnabled s = false := by obtain mode | mode := mode <;> simp [receiveEnabled, mode]
    rwa [busReceive, if_neg (ne_true_of_eq_false disabled)]
  case stop =>
    unfold busStop
    split
    · exact idleCalm_iff.2 ⟨⟨start, sb, addr, btf, af⟩, .inl rfl⟩
    · exact h

/-- A calm move of the reference bus sets none of the five flags only an injected fault sets (rule R209). -/
theorem noInjected_busStep {b : BusMove} (ok : calmMove (.bus b) = true) (reference : s.params.bus = .reference) :
    noInjected (busStep b s).sr1 = noInjected s.sr1 := by
  refine busStep_calm (P := fun t => noInjected t.sr1 = noInjected s.sr1) ok reference ?start (fun ack => ?address)
    (fun ack => ?transmit) (fun b => ?receive) ?stop
  case start => unfold busStart; split <;> rfl
  case address => cases ack <;> (unfold busAddress; split <;> rfl)
  case transmit => cases ack <;> (unfold busTransmit; split <;> rfl)
  case receive => unfold busReceive; split <;> rfl
  case stop => unfold busStop; split <;> rfl

end

end Sys2Proof.Safety
end

section
/-!
PROOFS. The handlers keep the well-behaved reference bus calm (rules R133 to R141, R149, R179, R180): from stage to
stage on the head Command, and at the end of a Command with the bus at rest.
-/

namespace Sys2Proof.Safety

open Sys2Proof.Machine Sys2Proof.Encoding Sys2Proof.Events

section

variable {s t u : State} {c : DataCmd} {r : List Command}

/-! ### What is to be shown of a step -/

/-- A sound state after a calm one is calm if no entry came to the queue, no fault arose, and the head Command is at one
of its stages, or the bus idle. -/
theorem calm_next (calm : Calm s) (inv : Inv t) (params : t.params = s.params) (queue : ∀ k ∈ t.queue, k ∈ s.queue)
    (injected : noInjected t.sr1 = true) (overflow : t.faults.rxOverflow = false)
    (front : ∀ c r, t.queue = .data c :: r → Stage c t) (empty : t.queue = [] → idleCalm t) : Calm t where
  inv := inv
  reference := params ▸ calm.reference
  reads := fun c hc => calm.reads c (queue _ hc)
  noInjected := injected
  noOverflow := overflow
  onHead := fun c r hq => headCalm_of_stage (front c r hq)
  onIdle := empty

/-- The head Command goes on to another stage. -/
theorem calm_serve (calm : Calm s) (inv : Inv t) (params : t.params = s.params) (front : s.queue = .data c :: r)
    (queue : t.queue = s.queue) (injected : noInjected t.sr1 = noInjected s.sr1)
    (overflow : t.faults.rxOverflow = s.faults.rxOverflow) (stage : Stage c t) : Calm t := by
  refine calm_next calm inv params (fun k hk => queue ▸ hk) (injected.trans calm.noInjected)
    (overflow.trans calm.noOverflow) (fun c' r' hq => ?_) (fun hq => ?_)
  · cases (front.symm.trans queue.symm).trans hq
    exact stage
  · cases (front.symm.trans queue.symm).trans hq

/-- The stage of the head Command of a calm state. -/
theorem Calm.stage (calm : Calm s) (front : s.queue = .data c :: r) : Stage c s :=
  stage_of_headCalm (calm.onHead c r front)

/-- No NoOp is at the head of a sound state (rule R40). -/
theorem Inv.queue_ne_noop (inv : Inv s) : s.queue ≠ .noop :: r := by
  intro front
  have shape := inv.shape
  rw [front] at shape
  cases shape

/-- The head slot of a sound state holds what was last written to it. -/
theorem headPhase_of_written {p : Phase} (inv : Inv t) (slots : t.slots = u.slots.set u.head p)
    (head : t.head = u.head) : headPhase t = p := by
  have low : u.head < u.slots.length := by
    have := inv.head
    rwa [← inv.slots, slots, List.length_set, head] at this
  rw [headPhase, phaseAt_of_set slots, head, if_pos ⟨rfl, low⟩]

/-! ### The end of a Command -/

/-- `u` follows `s` with the head Command off the wire: no signal is set, the bus is at rest, and of the slots at most
the head's was written. -/
structure OffWire (s u : State) : Prop where
  params : u.params = s.params
  head : u.head = s.head
  slots : ∀ j, s.head ≠ j → phaseAt u j = phaseAt s j
  waitStop : u.waitStop = false
  injected : noInjected u.sr1 = true
  overflow : u.faults.rxOverflow = false
  signals : Signals u false false false false false
  mode : Resting u

theorem OffWire.popCommand (off : OffWire s u) : OffWire s (popCommand u) :=
  { off with signals := { off.signals with } }

theorem OffWire.requestStop (off : OffWire s u) : OffWire s (requestStop u) :=
  { off with signals := { off.signals with } }

/-- A queue of legal shape that is not empty has a NoOp. -/
theorem noops_pos {q : List Command} (shape : wellGrouped q = true) (ne : q ≠ []) : 0 < noops q := by
  obtain ⟨ds, r, rfl, -, -⟩ := wellGrouped_split shape ne
  simp

/-- When the head transaction is over, the slot of the next one is Begin since its enqueue. -/
theorem headPhase_finalizeTo (inv : Inv s) (off : OffWire s u)
    (group : s.queue.dropWhile (fun k => !isNoop k) = .noop :: r) (shape : wellGrouped r = true) (ne : r ≠ []) :
    headPhase (finalizeTo r u) = .begin := by
  have count : 1 < noops s.queue := by
    have := noops_pos shape ne
    rw [HostOps.noops_of_dropWhile group]
    omega
  have behind : s.head ≠ (s.head + 1) % s.params.n := inv.behind_ne_head Nat.one_pos (count.trans inv.noops_lt)
  rw [headPhase, finalizeTo_head, off.head, off.params,
    phaseAt_of_set_ne (finalizeTo_slots r u) (off.head.symm ▸ behind), off.slots _ behind]
  exact inv.fresh 1 Nat.one_pos count

/-- Finalize with the Command off the wire: the next transaction's START is requested, or the bus is idle. -/
theorem calm_finalizeTo (calm : Calm s) (off : OffWire s u)
    (group : s.queue.dropWhile (fun k => !isNoop k) = .noop :: r) (cursor : u.cursor = 0)
    (inv : Inv (finalizeTo r u)) : Calm (finalizeTo r u) := by
  have shape : wellGrouped r = true := finalizeTo_queue r u ▸ inv.shape
  obtain ⟨start, sb, addr, btf, af⟩ := off.signals
  refine calm_next calm inv ?_ ?_ ?_ ?_ ?_ ?_
  · rw [finalizeTo_params, off.params]
  · obtain ⟨k, rfl⟩ := eq_drop_of_dropWhile group
    rw [finalizeTo_queue]
    exact fun _ hk => List.mem_of_mem_drop hk
  · rw [finalizeTo_sr1]
    exact off.injected
  · rw [finalizeTo_faults]
    exact off.overflow
  · intro c r' hq
    obtain rfl := (finalizeTo_queue r u).symm.trans hq
    exact .requested ⟨rfl, sb, addr, btf, af⟩ off.mode off.waitStop
      (headPhase_finalizeTo calm.inv off group shape (List.cons_ne_nil _ _)) cursor rfl
  · intro hq
    obtain rfl := (finalizeTo_queue r u).symm.trans hq
    exact idleCalm_iff.2 ⟨⟨start, sb, addr, btf, af⟩, off.mode⟩

/-- EndCommand with the Command off the wire: the transaction is over, or its next Command starts (rule R140). -/
theorem calm_endCommand {b : Bool} (calm : Calm s) (front : s.queue = .data c :: r) (off : OffWire s u)
    (queue : u.queue = s.queue) (inv : Inv t) (h : endCommand c b u = .next t) : Calm t := by
  have tail : u.queue.tail = r := by rw [queue, front, List.tail_cons]
  rcases endCommand_next h with ⟨r', next, rfl⟩ | ⟨d, r', next, dir, -⟩ | ⟨d, r', next, -, rfl⟩
  case inl =>
    have group : s.queue.dropWhile (fun k => !isNoop k) = .noop :: r' := by
      simp [front, tail.symm.trans next, isNoop]
    cases b with
    | true => exact calm_finalizeTo calm off.popCommand group rfl inv
    | false => exact calm_finalizeTo calm off.popCommand.requestStop group rfl inv
  case inr.inl =>
    have shape := calm.inv.shape
    rw [front, tail.symm.trans next, wellGrouped_read_data dir] at shape
    cases shape
  case inr.inr =>
    obtain ⟨-, sb, addr, btf, af⟩ := off.signals
    refine calm_next calm inv off.params (fun k hk => ?_) off.injected off.overflow (fun c' r'' hq => ?_) (fun hq => ?_)
    · rw [← queue]
      exact List.mem_of_mem_tail hk
    · have phase := headPhase_of_written (u := u) inv rfl rfl
      exact .requested ⟨rfl, sb, addr, btf, af⟩ off.mode off.waitStop phase rfl rfl
    · cases next.symm.trans hq

/-! ### The EV handler -/

/-- The case of a byte of a Write, after its phase and flag are written: the next byte is in flight, or the Command is
over (rules R134, R136). -/
theorem calm_transmitNext (calm : Calm s) (front : s.queue = .data c :: r) (dir : c.dir = .write) (off : OffWire s u)
    (queue : u.queue = s.queue) (phase : MovingPhase (headPhase u)) (mode : u.mode = .txIdle) (ack : u.cr1.ack = true)
    (stop : u.cr1.stop = false) (inv : Inv t) (h : transmitNext c u = .next t) : Calm t := by
  rcases transmitNext_next h with ⟨-, -, rfl⟩ | ⟨-, hend⟩
  · obtain ⟨start, sb, addr, btf, af⟩ := off.signals
    refine calm_serve calm inv off.params front queue (off.injected.trans calm.noInjected.symm)
      (off.overflow.trans calm.noOverflow.symm) ?_
    exact .sending _ ⟨start, sb, addr, btf, af⟩ (congrArg (busTake _) mode) off.waitStop phase (Nat.succ_pos _) ack stop
      dir
  · exact calm_endCommand calm front off queue inv hend

/-- Where data bytes are moved, the reception of one leaves ByteProcessing, which may stand already (rule R137). -/
theorem beginReceive_of_moving (phase : MovingPhase (headPhase s)) :
    beginReceive s = setHeadPhase .byteProcessing (clearBtf s) := by
  unfold beginReceive
  obtain phase | phase := phase
  · rw [if_pos phase]
  · have same : s.slots.set s.head .byteProcessing = s.slots := phase ▸ slots_set_headPhase s
    rw [if_neg (by simp [phase]), setHeadPhase, setPhase, clearBtf_slots, clearBtf_head, same]
    rfl

/-- A byte of a Read has a place in the buffer: the last but one is followed by LastByte, every other by the next
(rule R137). -/
theorem calm_evBtfRead (calm : Calm s) (front : s.queue = .data c :: r) (dir : c.dir = .read)
    (signals : Signals s false false false true false) (mode : s.mode = .rx) (idle : s.waitStop = false)
    (phase : MovingPhase (headPhase s)) (room : s.cursor + 1 < c.buf.len.toNat) (ack : s.cr1.ack = true)
    (stop : s.cr1.stop = false) (inv : Inv t) (h : exec .evBtfRead s = .next t) : Calm t := by
  obtain ⟨start, sb, addr, -, af⟩ := signals
  have notLast : headPhase s ≠ .lastByte := by obtain phase | phase := phase <;> simp [phase]
  rw [exec_evBtfRead_of_read front dir notLast, beginReceive_of_moving phase] at h
  rcases capture_next h with ⟨full, -⟩ | ⟨-, -, rfl⟩
  · exact absurd (Nat.lt_of_succ_lt room) (Nat.not_lt.2 full)
  · by_cases last : s.cursor + 1 + 1 = c.buf.len.toNat
    · rw [nackLast_of_eq last] at inv ⊢
      refine calm_serve calm inv rfl front rfl rfl rfl ?_
      exact .lastAwaited ⟨start, sb, addr, rfl, af⟩ mode idle (headPhase_of_written inv rfl rfl) last rfl rfl dir
    · rw [nackLast_of_ne last] at inv ⊢
      refine calm_serve calm inv rfl front rfl rfl rfl ?_
      exact .receiving false ⟨start, sb, addr, rfl, af⟩ mode idle (.inr (headPhase_of_set calm.inv rfl rfl))
        (Nat.lt_of_le_of_ne room last) ack stop dir

/-- The last byte of a Read has a place in the buffer, and the STOP wait begins (rule R138). -/
theorem calm_evBtfReadLast (calm : Calm s) (front : s.queue = .data c :: r) (dir : c.dir = .read)
    (signals : Signals s false false false true false) (mode : StopSent s) (phase : headPhase s = .lastByte)
    (last : s.cursor + 1 = c.buf.len.toNat) (inv : Inv t) (h : exec .evBtfReadLast s = .next t) : Calm t := by
  obtain ⟨start, sb, addr, -, af⟩ := signals
  rw [exec_evBtfReadLast_of_read front dir phase] at h
  rcases capture_next h with ⟨full, -⟩ | ⟨-, -, rfl⟩
  · exact absurd full (Nat.not_le.2 (Nat.lt_of_succ_le last.le))
  · refine calm_serve calm inv rfl front rfl rfl rfl ?_
    exact .stopping ⟨start, sb, addr, rfl, af⟩ mode rfl phase last dir

/-- Writing a phase to the head slot and clearing the last signal takes the Command off the wire, if the bus rests. -/
theorem offWire_of_calm {p : Phase} (calm : Calm s) (params : u.params = s.params) (head : u.head = s.head)
    (slots : u.slots = s.slots.set s.head p) (waitStop : u.waitStop = false)
    (injected : noInjected u.sr1 = noInjected s.sr1) (faults : u.faults = s.faults)
    (signals : Signals u false false false false false) (mode : Resting u) : OffWire s u where
  params := params
  head := head
  slots := fun _ hj => phaseAt_of_set_ne slots hj
  waitStop := waitStop
  injected := injected.trans calm.noInjected
  overflow := faults ▸ calm.noOverflow
  signals := signals
  mode := mode

/-- An entry of the EV handler takes the head Command from stage to stage, or to its end. -/
theorem calm_execEvIrq (calm : Calm s) (idle : s.waitStop = false) (inv : Inv t) (h : execEvIrq s = .next t) :
    Calm t := by
  rcases onHead_next h with ⟨empty, rfl⟩ | ⟨r, front, -⟩ | ⟨c, r, front, -⟩
  case inl =>
    obtain ⟨-, sb, addr, btf, -⟩ := calm.onIdle empty
    rwa [clearTopEvent, sb, addr, btf, if_neg Bool.false_ne_true, if_neg Bool.false_ne_true,
      if_neg Bool.false_ne_true]
  case inr.inl => exact absurd front calm.inv.queue_ne_noop
  case inr.inr =>
    have ran {k : EvCase} (selected : selectEvt s.sr1 c.dir (decide (headPhase s = .lastByte)) = k) :
        exec k.instr s = .next t := by
      rw [← selected, ← exec_evIrq_data front]
      exact h
    have quiet (sb : s.sr1.sb = false) (addr : s.sr1.addr = false) (btf : s.sr1.btf = false) : Calm t := by
      cases (onHead_data front).symm.trans (ran (selectEvt_none sb addr btf _ _))
      exact calm
    cases calm.stage front with
    | requested signals | addressing signals | addressRefused signals | sending _ signals | byteRefused signals
    | lastAwaited signals => exact quiet signals.sb signals.addr signals.btf
    | stopping _ _ waiting => exact nomatch waiting.symm.trans idle
    | started signals mode _ phase cursor ack stop =>
      obtain ⟨start, sb, addr, btf, af⟩ := signals
      cases (exec_evSb_data front).symm.trans (ran (k := .sb) (by simp [selectEvt, sb]))
      refine calm_serve calm inv rfl front rfl rfl rfl ?_
      exact .addressing ⟨start, rfl, addr, btf, af⟩ (congrArg (busTake _) mode) idle
        (headPhase_of_set calm.inv rfl rfl) cursor ack stop
    | addressedWrite signals mode _ phase cursor ack stop dir =>
      obtain ⟨start, sb, addr, btf, af⟩ := signals
      have off : OffWire s (clearAddr (setHeadPhase .addressSend s)) :=
        offWire_of_calm calm rfl rfl rfl idle rfl rfl ⟨start, sb, rfl, btf, af⟩ (.inr mode)
      exact calm_transmitNext calm front dir off rfl (.inl (headPhase_of_set calm.inv rfl rfl)) mode ack stop inv
        ((exec_evWrite_of_write front dir).1.symm.trans
          (ran (k := .addrWrite) (by simp [selectEvt, sb, addr, dir])))
    | sent signals mode _ phase cursor ack stop dir =>
      obtain ⟨start, sb, addr, btf, af⟩ := signals
      have off : OffWire s (clearBtf (setHeadPhase .byteProcessing s)) :=
        offWire_of_calm calm rfl rfl rfl idle rfl rfl ⟨start, sb, addr, rfl, af⟩ (.inr mode)
      exact calm_transmitNext calm front dir off rfl (.inr (headPhase_of_set calm.inv rfl rfl)) mode ack stop inv
        ((exec_evWrite_of_write front dir).2.symm.trans
          (ran (k := .btfWrite) (by simp [selectEvt, sb, addr, btf, dir])))
    | addressedRead signals mode _ phase cursor ack stop dir =>
      obtain ⟨start, sb, addr, btf, af⟩ := signals
      have long : 2 ≤ c.buf.len.toNat := calm.reads c (front ▸ List.mem_cons_self) dir
      cases (exec_evAddrRead_of_room front dir (Nat.zero_lt_of_lt long)).symm.trans
        (ran (k := .addrRead) (by simp [selectEvt, sb, addr, dir]))
      refine calm_serve calm inv rfl front rfl rfl rfl ?_
      exact .receiving false ⟨start, sb, rfl, btf, af⟩ mode idle (.inl (headPhase_of_set calm.inv rfl rfl))
        (cursor ▸ long) ack stop dir
    | receiving btf signals mode _ phase cursor ack stop dir =>
      cases btf with
      | false => exact quiet signals.sb signals.addr signals.btf
      | true =>
        have notLast : headPhase s ≠ .lastByte := by obtain phase | phase := phase <;> simp [phase]
        exact calm_evBtfRead calm front dir signals mode idle phase cursor ack stop inv
          (ran (k := .btfRead) (by simp [selectEvt, signals.sb, signals.addr, signals.btf, dir, notLast]))
    | lastReceived signals mode _ phase cursor ack dir =>
      exact calm_evBtfReadLast calm front dir signals mode phase cursor inv
        (ran (k := .btfReadLast) (by simp [selectEvt, signals.sb, signals.addr, signals.btf, dir, phase]))

/-! ### The ER handler and the end of the STOP wait -/

/-- Without an injected fault the ER entry finds a NACK or nothing (rule R88). -/
theorem selectErr_of_noInjected {f : Sr1} (h : noInjected f = true) :
    selectErr f = if f.af then .af else .none := by
  simp only [noInjected, Bool.and_eq_true, Bool.not_eq_true'] at h
  obtain ⟨⟨⟨⟨timeout, pecerr⟩, ovr⟩, arlo⟩, berr⟩ := h
  simp [selectErr, timeout, pecerr, ovr, arlo, berr]

/-- A NACK finds the bus at rest, and nothing but its flag set. -/
theorem Stage.nacked (h : Stage c s) (af : s.sr1.af = true) :
    Signals s false false false false true ∧ s.mode = .idle := by
  cases h with
  | addressRefused signals mode | byteRefused signals mode => exact ⟨signals, mode⟩
  | requested signals | started signals | addressing signals | addressedWrite signals | addressedRead signals
  | sending _ signals | sent signals | receiving _ signals | lastAwaited signals | lastReceived signals
  | stopping signals => exact nomatch signals.af.symm.trans af

/-- A NACK fails the head transaction with the bus at rest (rules R174, R179, R180). -/
theorem calm_execErIrq (calm : Calm s) (idle : s.waitStop = false) (inv : Inv t) (h : execErIrq s = .next t) :
    Calm t := by
  unfold execErIrq at h
  rw [selectErr_of_noInjected calm.noInjected] at h
  cases af : s.sr1.af with
  | false =>
    rw [af] at h
    cases h
    exact calm
  | true =>
    rw [af] at h
    rcases reportError_next h with ⟨empty, -⟩ | ⟨r, front, -⟩ | ⟨c, r, front, failed⟩
    · obtain ⟨-, -, -, -, noAf, -⟩ := calm.onIdle empty
      exact nomatch noAf.symm.trans af
    · exact absurd front calm.inv.queue_ne_noop
    · obtain ⟨⟨start, sb, addr, btf, -⟩, mode⟩ := (calm.stage front).nacked af
      obtain ⟨r', group, rfl⟩ := failHead_next failed
      exact calm_finalizeTo calm
        (offWire_of_calm calm rfl rfl rfl idle rfl rfl ⟨start, sb, addr, btf, rfl⟩ (.inl mode)) group rfl inv

/-- Once the STOP is on the wire the bus is idle and the Read ends (rule R139). -/
theorem calm_endStopWait (calm : Calm s) (waiting : s.waitStop = true) (done : s.cr1.stop = false) (inv : Inv t)
    (h : endStopWait s = .next t) : Calm t := by
  unfold endStopWait at h
  split at h
  · cases h
  · rename_i r front
    exact absurd front calm.inv.queue_ne_noop
  · rename_i c r front
    cases calm.stage front with
    | stopping signals mode _ phase cursor dir =>
      obtain ⟨start, sb, addr, btf, af⟩ := signals
      have off : OffWire s { s with waitStop := false } :=
        { params := rfl, head := rfl, slots := fun _ _ => rfl, waitStop := rfl, injected := calm.noInjected
          overflow := calm.noOverflow, signals := ⟨start, sb, addr, btf, af⟩
          mode := mode.elim (fun pending => nomatch pending.2.symm.trans done) fun sent => .inl sent.1 }
      exact calm_endCommand calm front off rfl inv h
    | requested _ _ idle | started _ _ idle | addressing _ _ idle | addressedWrite _ _ idle | addressedRead _ _ idle
    | addressRefused _ _ idle | sending _ _ _ idle | sent _ _ idle | byteRefused _ _ idle | receiving _ _ _ idle
    | lastAwaited _ _ idle | lastReceived _ _ idle => exact nomatch waiting.symm.trans idle

end

end Sys2Proof.Safety
end

section
/-!
PROOFS. Every step keeps the well-behaved reference bus calm (rules R149, R203 to R211, R277, R280): the tasks'
requests, whose Reads have room for two bytes, and the assembly over what a step can do.
-/

namespace Sys2Proof.Safety

open Sys2Proof.Machine Sys2Proof.HostOps Sys2Proof.Spec

/-! ### Reads of two bytes or more (rules R277, R280) -/

/-- Every Read of the queue has room for two bytes. -/
def LongReads (q : List Command) : Prop := ∀ c, Command.data c ∈ q → c.dir = .read → 2 ≤ c.buf.len.toNat

theorem readable_iff (b : Buf) : readable b = true ↔ 2 ≤ b.len.toNat := by simp [readable]

/-- An enqueue adds the entries of its own Commands, or none. -/
theorem longReads_enqueue {cs : List DataCmd} {s : State} (h : LongReads s.queue) (hcs : LongReads (cs.map .data)) :
    LongReads (enqueue cs s).queue := by
  obtain ⟨-, eq⟩ | ⟨-, eq⟩ := enqueue_cases cs s
  · rw [eq]
    exact h
  · rw [eq, acceptEnqueue_queue]
    intro c hc
    rw [group, List.mem_append, List.mem_append] at hc
    obtain hc | hc | hc := hc
    · exact h c hc
    · exact hcs c hc
    · cases List.mem_singleton.1 hc

/-- What a calm task's request word enqueues. -/
theorem longReads_of_decodeReq {n : Nat} {w : Word} {wb rb : Buf} {i : Instr} {cs : List DataCmd}
    (ok : calmMove (.task w wb rb) = true) (hd : decodeReq n .task w wb rb = .ok i) (hcs : enqueues i = some cs) :
    LongReads (cs.map .data) := by
  have long (op : reqOp w = 2 ∨ reqOp w = 3) : 2 ≤ rb.len.toNat := by
    have ok : readable rb = true ∨ reqOp w ≠ 2 ∧ reqOp w ≠ 3 := by simpa [calmMove] using ok
    exact (readable_iff rb).1 (ok.resolve_right fun ⟨two, three⟩ => op.elim two three)
  unfold decodeReq decodeTaskOp at hd
  split at hd
  · cases hd
  · dsimp only at hd
    split at hd
    case h_1 =>
      cases hd
      cases hcs
      simp [LongReads]
    case h_2 op =>
      cases hd
      cases hcs
      simp [LongReads, long (.inl op)]
    case h_3 op =>
      cases hd
      cases hcs
      simp [LongReads, long (.inr op)]
    case h_4 | h_5 =>
      split at hd
      · cases hd
        cases hcs
      · cases hd
    case h_6 => cases hd

theorem longReads_runTask {w : Word} {wb rb : Buf} {s t : State} (h : LongReads s.queue)
    (ok : calmMove (.task w wb rb) = true) (ran : runTask w wb rb s = .next t) : LongReads t.queue := by
  unfold runTask at ran
  split at ran
  · split at ran
    · rename_i i hd
      cases hcs : enqueues i with
      | some cs =>
        cases (exec_of_enqueues hcs s).symm.trans ran
        exact longReads_enqueue h (longReads_of_decodeReq ok hd hcs)
      | none =>
        have future : isFuture i = true := by
          rcases decodeReq_task hd with ⟨a, rfl⟩ | ⟨a, rfl⟩ | ⟨a, rfl⟩ | ⟨k, rfl, -⟩ | ⟨k, rfl, -⟩
          case inr.inr.inr.inl | inr.inr.inr.inr => rfl
          all_goals cases hcs
        obtain ⟨rs, ls, bs, rfl⟩ := exec_future_next future ran
        exact h
    · cases ran
  · cases ran
    exact h

/-- Each decoded entry comes from an encoded one. -/
theorem mem_of_decodeEntries {es : List CmdWords} {ks : List Command} {k : Command} (h : decodeEntries es = .ok ks)
    (hk : k ∈ ks) : ∃ e ∈ es, decodeCommand e = .ok k := by
  induction es generalizing ks with
  | nil =>
    cases h
    cases hk
  | cons e es ih =>
    unfold decodeEntries at h
    split at h
    · rename_i k' ks' he hes
      cases h
      obtain rfl | hk := List.mem_cons.1 hk
      · exact ⟨e, List.mem_cons_self, he⟩
      · obtain ⟨e', he', hd⟩ := ih hes hk
        exact ⟨e', List.mem_cons_of_mem e he', hd⟩
    · cases h
    · cases h

/-- The entry of a Read carries the Read's tag and buffer (rules R76, R77). -/
theorem decodeCommand_read_words {e : CmdWords} {d : DataCmd} (h : decodeCommand e = .ok (.data d))
    (dir : d.dir = .read) : cmdTag e.w0 = 2 ∧ d.buf = ⟨e.w1, e.w2⟩ := by
  unfold decodeCommand at h
  split at h
  · cases h
  · split at h
    · split at h <;> cases h
    · cases h
      cases dir
    · rename_i tag
      cases h
      exact ⟨tag, rfl⟩
    · cases h

/-- A list of legal shape is its data Commands. -/
theorem eq_map_of_legalShape {ks : List Command} {cs : List DataCmd} (h : legalShape ks = some cs) :
    ks = cs.map .data := by
  unfold legalShape at h
  split at h
  · cases h
    rfl
  · split at h
    · cases h
      rfl
    · cases h
  · cases h

theorem longReads_runRawEnqueue {es : List CmdWords} {s t : State} (h : LongReads s.queue)
    (ok : calmMove (.rawEnqueue es) = true) (ran : runRawEnqueue es s = .next t) : LongReads t.queue := by
  unfold runRawEnqueue at ran
  split at ran
  · split at ran
    · cases ran
    · rename_i ks hks
      split at ran
      · rename_i cs hcs
        cases ran
        refine longReads_enqueue h fun d hd dir => ?_
        rw [← eq_map_of_legalShape hcs] at hd
        obtain ⟨e, he, decoded⟩ := mem_of_decodeEntries hks hd
        obtain ⟨tag, buf⟩ := decodeCommand_read_words decoded dir
        rw [buf, ← readable_iff]
        simpa [tag] using List.all_eq_true.1 ok e he
      · cases ran
  · cases ran
    exact h

/-- The offers that enqueue keep to long Reads. -/
theorem longReads_of_enqueuer {m : Move} {s t : State} (h : LongReads s.queue) (ok : calmMove m = true)
    (own : Enqueuer (.agent m)) (ran : runMove m s = .next t) : LongReads t.queue := by
  obtain ⟨w, wb, rb, ⟨⟩⟩ | ⟨es, ⟨⟩⟩ := own
  · exact longReads_runTask h ok ran
  · exact longReads_runRawEnqueue h ok ran

/-! ### Enqueue -/

/-- `headCalm` reads no more of the state than these. -/
theorem headCalm_congr {c : DataCmd} {s t : State} (wait : t.waitStop = s.waitStop) (phase : headPhase t = headPhase s)
    (cursor : t.cursor = s.cursor) (cr1 : t.cr1 = s.cr1) (sr1 : t.sr1 = s.sr1) (mode : t.mode = s.mode)
    (h : headCalm c s) : headCalm c t := by
  unfold headCalm headCalm.moving at *
  rw [wait, phase, cursor, cr1, sr1, mode]
  exact h

/-- An accepted enqueue requests a START on an idle engine, and leaves the head Command alone on a busy one. -/
theorem calm_acceptEnqueue {cs : List DataCmd} {s : State} (calm : Calm s) (wait : s.waitStop = false)
    (reads : LongReads (acceptEnqueue cs s).queue) (inv : Inv (acceptEnqueue cs s)) : Calm (acceptEnqueue cs s) := by
  by_cases empty : s.queue = []
  · obtain ⟨⟨-, sb, addr, btf, af⟩, mode⟩ := idleCalm_iff.1 (calm.onIdle empty)
    have slot : nextSlot s = s.head := (nextSlot_of_nil empty).trans (Nat.mod_eq_of_lt calm.inv.head)
    have phase : headPhase (acceptEnqueue cs s) = .begin :=
      headPhase_of_set calm.inv (slot ▸ acceptEnqueue_slots cs s) (acceptEnqueue_head cs s)
    rw [acceptEnqueue_of_nil empty] at reads inv phase ⊢
    have stage (c : DataCmd) : Stage c (giveResult (.enq (.ok (nextSlot s))) (startIdle (pushGroup cs s))) :=
      .requested ⟨rfl, sb, addr, btf, af⟩ mode wait phase (calm.inv.idle empty).1 rfl
    exact { calm with
      inv
      reads
      onHead := fun c _ _ => headCalm_of_stage (stage c)
      onIdle := fun hq => by simp [startIdle, group] at hq }
  · have notHead : nextSlot s ≠ s.head := by
      have := nextSlotIsFree s 0 calm.inv (noops_pos calm.inv.shape empty)
      rw [Nat.add_zero, Nat.mod_eq_of_lt calm.inv.head] at this
      exact this.symm
    have phase : headPhase (acceptEnqueue cs s) = headPhase s := by
      rw [headPhase, acceptEnqueue_head, phaseAt_of_set_ne (acceptEnqueue_slots cs s) notHead]
      rfl
    rw [acceptEnqueue_of_ne_nil empty] at reads inv phase ⊢
    obtain ⟨k, r, front⟩ := List.exists_cons_of_ne_nil empty
    exact { calm with
      inv
      reads
      onHead := fun c r' hq => by
        obtain ⟨rfl, -⟩ := List.cons_eq_cons.1 ((congrArg (· ++ group cs) front).symm.trans hq)
        exact headCalm_congr (s := s) rfl phase rfl rfl rfl rfl (calm.onHead c r front)
      onIdle := fun hq => by simp [group] at hq }

theorem calm_enqueue {cs : List DataCmd} {s : State} (calm : Calm s) (wait : s.waitStop = false)
    (reads : LongReads (enqueue cs s).queue) (inv : Inv (enqueue cs s)) : Calm (enqueue cs s) := by
  obtain ⟨-, eq⟩ | ⟨-, eq⟩ := enqueue_cases cs s
  · rw [eq] at inv ⊢
    exact { calm with inv }
  · rw [eq] at reads inv ⊢
    exact calm_acceptEnqueue calm wait reads inv

/-! ### Every step -/

/-- A calm move of the reference bus keeps the state calm. -/
theorem calm_busStep {s : State} (calm : Calm s) {b : BusMove} (ok : calmMove (.bus b) = true)
    (inv : Inv (busStep b s)) : Calm (busStep b s) where
  inv := inv
  reference := by rw [busStep_params]; exact calm.reference
  reads := by rw [busStep_queue]; exact calm.reads
  noInjected := (noInjected_busStep ok calm.reference).trans calm.noInjected
  noOverflow := by rw [busStep_faults]; exact calm.noOverflow
  onHead := by
    rw [busStep_queue]
    exact fun c r front => headCalm_of_stage ((calm.stage front).busStep ok calm.reference)
  onIdle := by
    rw [busStep_queue]
    exact fun empty => idleCalm_busStep (calm.onIdle empty) ok calm.reference

/-- A Poll returned to a task is no part of what is calm. -/
theorem calm_returnPoll {s : State} (calm : Calm s) (slot : Nat) (bs : List Hold)
    (inv : Inv { returnPoll slot s with blocked := bs }) : Calm { returnPoll slot s with blocked := bs } := by
  obtain ⟨ls, -, eq⟩ := returnPoll_eq slot s
  rw [eq] at inv ⊢
  exact { calm with inv }

/-- Every calm move of every agent keeps the state calm. -/
theorem calm_runMove {m : Move} {s t : State} (calm : Calm s) (ok : calmMove m = true) (h : runMove m s = .next t) :
    Calm t := by
  have did := runMove_did h
  have inv : Inv t := (Effect.of_did did).inv calm.inv
  cases did with
  | nothing => exact calm
  | enqueued cs _ own free =>
    exact calm_enqueue calm (waitStop_of_taskMayRun free) (longReads_of_enqueuer calm.reads ok own h) inv
  | polled slot => exact calm_returnPoll calm slot _ inv
  | resumed k hold => exact calm_returnPoll calm hold.slot _ inv
  | held | raced | stored | critical | raised => exact { calm with inv }
  | event _ idle _ ran => exact calm_execEvIrq calm idle inv ran
  | error _ idle _ ran => exact calm_execErIrq calm idle inv ran
  | stopped _ waiting done ran => exact calm_endStopWait calm waiting done inv ran
  | bus b own =>
    cases own
    exact calm_busStep calm ok inv

/-- Settles O15: the offers are no part of what is calm, and every calm move keeps it. -/
theorem wellBehavedBusStaysCalm : Obligations.WellBehavedBusStaysCalm := by
  intro s t m calm offer ok h
  obtain ⟨sc, tk, taken⟩ := takeOffer_state s
  rw [step, offer, taken] at h
  have calm' : Calm { s with script := sc, tick := tk } := { calm with inv := inv_offers calm.inv sc tk }
  exact calm_runMove calm' ok h

end Sys2Proof.Safety
end

section
/-!
PROOFS. The ER handler (42_error_handler): its cases as whole next states (rules R170 to R181), and what its
instructions leave unchanged (rules R170 to R182, R44, R48).
-/

namespace Sys2Proof.Errors

open Sys2Proof.Machine Sys2Proof.Safety Sys2Proof.Spec Sys2Proof.Encoding Sys2Proof.Events

/-! ### The cases (rules R170 to R178) -/

/-- The entry is the case it selects; every other row of the ER handler is a case. -/
theorem error_case {i : Instr} (error : isError i = true) (s : State) :
    ∃ k : ErCase, exec i s = exec k.instr s ∧ (i = k.instr ∨ i = .erIrq) := by
  cases i with
  | erIrq => exact ⟨_, exec_erIrq s, .inr rfl⟩
  | erTimeout => exact ⟨.timeout, rfl, .inl rfl⟩
  | erPecerr => exact ⟨.pecerr, rfl, .inl rfl⟩
  | erOvr => exact ⟨.ovr, rfl, .inl rfl⟩
  | erAf => exact ⟨.af, rfl, .inl rfl⟩
  | erArlo => exact ⟨.arlo, rfl, .inl rfl⟩
  | erBerr => exact ⟨.berr, rfl, .inl rfl⟩
  | erNone => exact ⟨.none, rfl, .inl rfl⟩
  | _ => cases error

/-- An instruction that reports an Error is a case of the ER handler. -/
theorem erCase_of_reports {p : Phase} {i : Instr} {e : BusError} (reported : reports p i = some e) :
    ∃ k : ErCase, i = k.instr := by
  cases i with
  | erTimeout => exact ⟨.timeout, rfl⟩
  | erPecerr => exact ⟨.pecerr, rfl⟩
  | erOvr => exact ⟨.ovr, rfl⟩
  | erAf => exact ⟨.af, rfl⟩
  | erArlo => exact ⟨.arlo, rfl⟩
  | _ => cases reported

/-- A case clears its own flag and no other (rule R170). -/
theorem clearErr_eq (k : ErCase) (s : State) : clearErr k s = { s with sr1 := serviced s.sr1 k.instr } := by
  cases k <;> rfl

/-- The Error of ER_AF, refined from the head slot's phase (rule R175). -/
theorem reports_erAf (p : Phase) : reports p .erAf = some (.noAcknowledge (nackSource p)) := by
  cases p <;> rfl

section

variable {s : State} {k : ErCase} {e : BusError} {r : List Command}

/-- A case with an Error reports it (rules R171 to R176). -/
theorem exec_erCase_of_reports (reported : reports (headPhase s) k.instr = some e) :
    exec k.instr s = reportError k e s := by
  cases k with
  | af =>
    cases (reports_erAf _).symm.trans reported
    rfl
  | berr | none => cases reported
  | _ =>
    cases reported
    rfl

/-- A case without an Error only clears its flag (rules R177, R178). -/
theorem exec_erCase_of_silent (silent : reports (headPhase s) k.instr = none) :
    exec k.instr s = .next (clearErr k s) := by
  cases k with
  | berr | none => rfl
  | af => cases (reports_erAf _).symm.trans silent
  | _ => cases silent

/-! ### A reported error (rules R179, R180, R181) -/

/-- On an empty queue a reported error only clears its flag (rule R181). -/
theorem reportError_nil (empty : s.queue = []) : reportError k e s = .next (clearErr k s) := by
  simp only [reportError, empty]

/-- With a data Command at the head it fails the head transaction. -/
theorem reportError_data {c : DataCmd} (front : s.queue = .data c :: r) :
    reportError k e s = failHead e (clearErr k s) := by
  simp only [reportError, front]

/-- FailHead at the NoOp is the end of the head transaction: Finalize keeps the Error it finds recorded (rules R141,
R179, R180). -/
theorem finalizeTo_failed (e : BusError) (r : List Command) (s : State) :
    finalizeTo r { setHeadPhase (.fail e) s with queue := .noop :: r, cursor := 0 } =
      transactionOver (.fail e) r s := by
  calc
    _ = { transactionOver (.fail e) r s with
          slots := (s.slots.set s.head (.fail e)).set s.head (finalPhase (headPhase (setHeadPhase (.fail e) s))) } := by
      cases r <;> rfl
    _ = { transactionOver (.fail e) r s with slots := s.slots.set s.head (.fail e) } :=
      congrArg (fun l => { transactionOver (.fail e) r s with slots := l }) (set_finalPhase s.slots s.head (.fail e))
    _ = transactionOver (.fail e) r s := by cases r <;> rfl

/-- A reported error with a transaction at the head ends it with the Error. -/
theorem reportError_group {ds : List DataCmd} (nonempty : ds ≠ []) (front : s.queue = ds.map .data ++ .noop :: r) :
    reportError k e s = .next (transactionOver (.fail e) r (clearErr k s)) := by
  obtain ⟨d, ds, rfl⟩ := List.exists_cons_of_ne_nil nonempty
  rw [reportError_data front, failHead_group ((clearErr_queue k s).trans front), finalizeTo_failed]

end

/-- Settles O43: the instruction is a case of the ER handler, and it reports. -/
theorem reportedErrorFailsAndSkipsTheHead : Obligations.ReportedErrorFailsAndSkipsTheHead := by
  intro s i e ds r reported nonempty front
  obtain ⟨k, rfl⟩ := erCase_of_reports reported
  rw [exec_erCase_of_reports reported, reportError_group nonempty front, clearErr_eq]

/-- Settles O44: an empty queue leaves nothing to fail. -/
theorem unreportedErrorsOnlyClearTheirFlag : Obligations.UnreportedErrorsOnlyClearTheirFlag := by
  refine fun s => ⟨rfl, rfl, fun empty i error notEntry => ?_⟩
  obtain ⟨k, -, rfl | entry⟩ := error_case error s
  · rw [← clearErr_eq]
    cases reported : reports (headPhase s) k.instr with
    | none => exact exec_erCase_of_silent reported
    | some e => rw [exec_erCase_of_reports reported, reportError_nil empty]
  · exact absurd entry notEntry

/-! ### What the ER handler leaves unchanged -/

/-- What an instruction of the ER handler can answer: its flag cleared, the NoOp fault, or its flag cleared and the head
transaction failed. -/
theorem error_next {s t : State} {i : Instr} (error : isError i = true) (h : exec i s = .next t) :
    (∃ k, t = clearErr k s) ∨ t = setFault .noopAtHead s ∨
      ∃ k e r, t = transactionOver (.fail e) r (clearErr k s) := by
  obtain ⟨k, same, -⟩ := error_case error s
  cases reported : reports (headPhase s) k.instr with
  | none =>
    cases (same.trans (exec_erCase_of_silent reported)).symm.trans h
    exact .inl ⟨k, rfl⟩
  | some e =>
    have ran := (same.trans (exec_erCase_of_reports reported)).symm.trans h
    rcases reportError_next ran with ⟨-, rfl⟩ | ⟨r, -, rfl⟩ | ⟨c, r, -, failed⟩
    · exact .inl ⟨k, rfl⟩
    · exact .inr (.inl rfl)
    · obtain ⟨r, -, rfl⟩ := failHead_next failed
      exact .inr (.inr ⟨k, e, r, finalizeTo_failed e r (clearErr k s)⟩)

/-- What every instruction of the ER handler keeps from `s` to `t`. By default each field says that `t` has the part it
speaks of as `s` has it. -/
structure ErrorKeeps (s t : State) : Prop where
  outside : sameOutside s t := by and_intros <;> rfl
  tasks : sameTasks s t := by and_intros <;> rfl
  slots : ∀ j, j ≠ s.head → phaseAt t j = phaseAt s j := by exact fun _ _ => rfl
  mem : t.mem = s.mem := by rfl
  drTx : t.drTx = s.drTx := by rfl
  mode : t.mode = s.mode := by rfl
  waitStop : t.waitStop = s.waitStop := by rfl
  stop : t.cr1.stop = s.cr1.stop := by rfl
  sb : t.sr1.sb = s.sr1.sb := by rfl
  addr : t.sr1.addr = s.sr1.addr := by rfl
  btf : t.sr1.btf = s.sr1.btf := by rfl
  rxOverflow : t.faults.rxOverflow = s.faults.rxOverflow := by rfl
  readNotLast : t.faults.readNotLast = s.faults.readNotLast := by rfl
  bufferRace : t.faults.bufferRace = s.faults.bufferRace := by rfl

/-- Two updates in turn, the first of which leaves `head`. -/
theorem ErrorKeeps.trans {s u t : State} (h : ErrorKeeps s u) (head : u.head = s.head) (k : ErrorKeeps u t) :
    ErrorKeeps s t where
  outside := sameOutside_trans h.outside k.outside
  tasks := sameTasks_trans h.tasks k.tasks
  slots := fun j hj => (k.slots j (head ▸ hj)).trans (h.slots j hj)
  mem := k.mem.trans h.mem
  drTx := k.drTx.trans h.drTx
  mode := k.mode.trans h.mode
  waitStop := k.waitStop.trans h.waitStop
  stop := k.stop.trans h.stop
  sb := k.sb.trans h.sb
  addr := k.addr.trans h.addr
  btf := k.btf.trans h.btf
  rxOverflow := k.rxOverflow.trans h.rxOverflow
  readNotLast := k.readNotLast.trans h.readNotLast
  bufferRace := k.bufferRace.trans h.bufferRace

theorem errorKeeps_clearErr (k : ErCase) (s : State) : ErrorKeeps s (clearErr k s) := by
  cases k <;> exact {}

/-- The end of a transaction writes the head slot before `head` moves on (rule R141). -/
theorem errorKeeps_transactionOver (v : Phase) (r : List Command) (s : State) :
    ErrorKeeps s (transactionOver v r s) := by
  cases r <;> exact { slots := fun _ hj => phaseAt_of_set_ne rfl hj.symm }

theorem error_keeps {s t : State} {i : Instr} (error : isError i = true) (h : exec i s = .next t) :
    ErrorKeeps s t := by
  rcases error_next error h with ⟨k, rfl⟩ | rfl | ⟨k, e, r, rfl⟩
  · exact errorKeeps_clearErr k s
  · exact {}
  · exact (errorKeeps_clearErr k s).trans (clearErr_head k s) (errorKeeps_transactionOver (.fail e) r _)

/-- Settles O47: a cleared error flag, the NoOp fault and the end of the head transaction all keep it. -/
theorem errorFrame : Obligations.ErrorFrame := by
  intro s t i error h
  have k := error_keeps error h
  exact ⟨k.outside, k.tasks, k.slots, k.mem, k.drTx, k.mode, k.waitStop, k.stop, k.sb, k.addr, k.btf, k.rxOverflow,
    k.readNotLast, k.bufferRace⟩

end Sys2Proof.Errors
end

section
/-!
PROOFS. The bus agent (rules R200 to R210): when each step of the reference bus is taken, what a step of either bus
keeps, and that no step of any agent removes an entry of the wire log.
-/

namespace Sys2Proof.Bus

open Sys2Proof.Machine Sys2Proof.Safety Sys2Proof.Spec Sys2Proof.Events Sys2Proof.Errors

/-! ### Which step the bus agent takes (rules R200, R201) -/

section

variable {s : State} (reference : s.params.bus = .reference)
include reference

theorem runMove_start : runMove (.bus .start) s = .next (busStart s) := by
  simp only [runMove, busStep, reference]
theorem runMove_address (ack : Bool) : runMove (.bus (.address ack)) s = .next (busAddress ack s) := by
  simp only [runMove, busStep, reference]
theorem runMove_transmit (ack : Bool) : runMove (.bus (.transmit ack)) s = .next (busTransmit ack s) := by
  simp only [runMove, busStep, reference]
theorem runMove_receive (b : Byte) : runMove (.bus (.receive b)) s = .next (busReceive b s) := by
  simp only [runMove, busStep, reference]
theorem runMove_stop : runMove (.bus .stop) s = .next (busStop s) := by
  simp only [runMove, busStep, reference]
theorem runMove_inject (i : InjectFlag) : runMove (.bus (.inject i)) s = .next (busInject i s) := by
  simp only [runMove, busStep, reference]

end

theorem runMove_permissive {s : State} (permissive : s.params.bus = .permissive) (f : Sr1) (rx : Option Byte)
    (noStart noStop : Bool) :
    runMove (.bus (.permissive f rx noStart noStop)) s = .next (busPermissive f rx noStart noStop s) := by
  simp only [runMove, busStep, permissive]

/-! ### START and STOP (rules R203, R207, R208) -/

section

variable {s : State}

theorem busResting_iff {m : BusMode} : busResting m = true ↔ m = .idle ∨ m = .txIdle ∨ m = .rxDone := by
  cases m <;> simp [busResting]

theorem startEnabled_iff : startEnabled s = true ↔
    s.cr1.start = true ∧ s.cr1.stop = false ∧ (s.mode = .idle ∨ s.mode = .txIdle ∨ s.mode = .rxDone) := by
  simp only [startEnabled, Bool.and_eq_true, Bool.not_eq_true', busResting_iff, and_assoc]

theorem stopEnabled_iff : stopEnabled s = true ↔
    s.cr1.stop = true ∧ (s.mode = .idle ∨ s.mode = .txIdle ∨ s.mode = .rxDone) := by
  simp only [stopEnabled, Bool.and_eq_true, busResting_iff]

end

/-- Settles O57: each of the two steps is taken exactly when it is enabled. -/
theorem referenceBusStartsAndStops : Obligations.ReferenceBusStartsAndStops := by
  intro s reference
  rw [runMove_start reference, runMove_stop reference]
  refine ⟨fun start noStop resting => ?start, fun stop resting => ?stop, fun disabled => ?noStart,
    fun disabled => ?noStop⟩
  case start => rw [busStart, if_pos (startEnabled_iff.2 ⟨start, noStop, resting⟩)]
  case stop => rw [busStop, if_pos (stopEnabled_iff.2 ⟨stop, resting⟩)]
  case noStart =>
    have off : ¬ startEnabled s = true := by
      simpa only [startEnabled_iff, not_and_or, not_or, Bool.not_eq_true, Bool.not_eq_false] using disabled
    rw [busStart, if_neg off]
  case noStop =>
    have off : ¬ stopEnabled s = true := by
      simpa only [stopEnabled_iff, not_and_or, not_or, Bool.not_eq_true, Bool.not_eq_false] using disabled
    rw [busStop, if_neg off]

/-! ### Bytes on the wire (rules R204, R205, R206) -/

theorem receiveEnabled_iff {s : State} :
    receiveEnabled s = true ↔ s.mode = .rx ∧ s.sr1.addr = false ∧ s.sr1.btf = false := by
  simp only [receiveEnabled, Bool.and_eq_true, Bool.not_eq_true', decide_eq_true_eq, and_assoc]

/-- Settles O58: the address and transmit steps by the mode they answer, the receive step by when it is enabled. -/
theorem referenceBusMovesBytes : Obligations.ReferenceBusMovesBytes := by
  intro s b reference
  simp only [runMove_address reference, runMove_transmit reference, runMove_receive reference]
  refine ⟨fun inFlight => ?address, fun inFlight => ?transmit, fun rx noAddr noBtf => ?receive, fun disabled => ?held⟩
  case address =>
    simp only [busAddress, inFlight]
    exact ⟨rfl, rfl⟩
  case transmit =>
    simp only [busTransmit, inFlight]
    exact ⟨rfl, rfl⟩
  case receive =>
    rw [busReceive, if_pos (receiveEnabled_iff.2 ⟨rx, noAddr, noBtf⟩)]
    simp only [wireByte, Bool.or_eq_true, Bool.not_eq_true']
  case held =>
    have off : ¬ receiveEnabled s = true := by
      simpa only [receiveEnabled_iff, not_and_or, not_or, Bool.not_eq_true, Bool.not_eq_false] using disabled
    rw [busReceive, if_neg off]

/-! ### The permissive environment and injected faults (rules R201, R209) -/

/-- A request is cleared, or stays as it was. -/
theorem and_not_eq_ite (request cleared : Bool) : (request && !cleared) = if cleared then false else request := by
  cases cleared <;> simp

/-- Settles O59: the flags of a permissive step are a union, its requests cleared or left; an injected fault sets the
flag it names. -/
theorem permissiveAndInjectedSteps : Obligations.PermissiveAndInjectedSteps := by
  refine ⟨fun s f rx noStart noStop permissive => ?permissive, fun s reference => ?injected⟩
  case permissive =>
    rw [runMove_permissive permissive]
    simp only [busPermissive, sr1Union, and_not_eq_ite]
  case injected =>
    simp only [runMove_inject reference]
    exact ⟨rfl, rfl, rfl, rfl, rfl⟩

/-! ### The wire log (rule R202) -/

/-- From `s` to `t` the wire log gets at most one entry, behind those it has. -/
def LogGrows (s t : State) : Prop := ∃ ws, t.wire = s.wire ++ ws ∧ ws.length ≤ 1

theorem logGrows_of_eq {s t : State} (h : t.wire = s.wire) : LogGrows s t :=
  ⟨[], h.trans (List.append_nil _).symm, Nat.zero_le 1⟩

theorem logGrows_of_entry {s t : State} (e : WireEntry) (h : t.wire = s.wire ++ [e]) : LogGrows s t :=
  ⟨[e], h, Nat.le_refl 1⟩

/-! ### What a step of the bus agent keeps (rules R200, R202, R210) -/

/-- What every step of the bus agent keeps of the controller's registers and the wire log: `CR1.ACK` stays, no request
is set, no status flag cleared, no entry of the log lost. By default each field says that the step does not write the
part it speaks of. -/
structure BusKeeps (s t : State) : Prop where
  ack : t.cr1.ack = s.cr1.ack := by rfl
  start : t.cr1.start = true → s.cr1.start = true := by exact id
  stop : t.cr1.stop = true → s.cr1.stop = true := by exact id
  sb : s.sr1.sb = true → t.sr1.sb = true := by exact id
  addr : s.sr1.addr = true → t.sr1.addr = true := by exact id
  btf : s.sr1.btf = true → t.sr1.btf = true := by exact id
  timeout : s.sr1.timeout = true → t.sr1.timeout = true := by exact id
  pecerr : s.sr1.pecerr = true → t.sr1.pecerr = true := by exact id
  ovr : s.sr1.ovr = true → t.sr1.ovr = true := by exact id
  af : s.sr1.af = true → t.sr1.af = true := by exact id
  arlo : s.sr1.arlo = true → t.sr1.arlo = true := by exact id
  berr : s.sr1.berr = true → t.sr1.berr = true := by exact id
  wire : LogGrows s t := by exact logGrows_of_eq rfl

/-- The permissive environment sets flags over those set and clears requests (rule R201). -/
theorem busKeeps_busPermissive (f : Sr1) (rx : Option Byte) (noStart noStop : Bool) (s : State) :
    BusKeeps s (busPermissive f rx noStart noStop s) := by
  have kept (a b : Bool) (set : a = true) : (a || b) = true := Bool.or_eq_true_iff.2 (.inl set)
  have cleared (a b : Bool) (set : (a && !b) = true) : a = true := (Bool.and_eq_true_iff.1 set).1
  exact {
    start := cleared _ _
    stop := cleared _ _
    sb := kept _ _
    addr := kept _ _
    btf := kept _ _
    timeout := kept _ _
    pecerr := kept _ _
    ovr := kept _ _
    af := kept _ _
    arlo := kept _ _
    berr := kept _ _ }

theorem busKeeps_busStart (s : State) : BusKeeps s (busStart s) := by
  unfold busStart
  split
  · exact { start := nofun, sb := fun _ => rfl, wire := logGrows_of_entry .start rfl }
  · exact {}

theorem busKeeps_busAddress (ack : Bool) (s : State) : BusKeeps s (busAddress ack s) := by
  unfold busAddress
  split
  · rename_i b inFlight
    cases ack with
    | true => exact { addr := fun _ => rfl, wire := logGrows_of_entry (.acked b) rfl }
    | false => exact { af := fun _ => rfl, wire := logGrows_of_entry (.nacked b) rfl }
  · exact {}

theorem busKeeps_busTransmit (ack : Bool) (s : State) : BusKeeps s (busTransmit ack s) := by
  unfold busTransmit
  split
  · rename_i b inFlight
    cases ack with
    | true => exact { btf := fun _ => rfl, wire := logGrows_of_entry (.acked b) rfl }
    | false => exact { af := fun _ => rfl, wire := logGrows_of_entry (.nacked b) rfl }
  · exact {}

theorem busKeeps_busReceive (b : Byte) (s : State) : BusKeeps s (busReceive b s) := by
  unfold busReceive
  split
  · exact { btf := fun _ => rfl, wire := logGrows_of_entry (wireByte s.cr1.ack b) rfl }
  · exact {}

theorem busKeeps_busStop (s : State) : BusKeeps s (busStop s) := by
  unfold busStop
  split
  · exact { stop := nofun, wire := logGrows_of_entry .stop rfl }
  · exact {}

theorem busKeeps_busInject (i : InjectFlag) (s : State) : BusKeeps s (busInject i s) := by
  cases i with
  | timeout => exact { timeout := fun _ => rfl }
  | pecerr => exact { pecerr := fun _ => rfl }
  | ovr => exact { ovr := fun _ => rfl }
  | arlo => exact { arlo := fun _ => rfl }
  | berr => exact { berr := fun _ => rfl }

/-- Whichever bus agent runs; the steps of the other leave the state as it was. -/
theorem busKeeps_busStep (b : BusMove) (s : State) : BusKeeps s (busStep b s) := by
  have other : BusKeeps s s := {}
  cases bus : s.params.bus with
  | permissive =>
    cases b with
    | permissive f rx noStart noStop =>
      simpa only [busStep, bus] using busKeeps_busPermissive f rx noStart noStop s
    | _ => simpa only [busStep, bus] using other
  | reference =>
    cases b with
    | permissive => simpa only [busStep, bus] using other
    | start => simpa only [busStep, bus] using busKeeps_busStart s
    | address ack => simpa only [busStep, bus] using busKeeps_busAddress ack s
    | transmit ack => simpa only [busStep, bus] using busKeeps_busTransmit ack s
    | receive b => simpa only [busStep, bus] using busKeeps_busReceive b s
    | stop => simpa only [busStep, bus] using busKeeps_busStop s
    | inject i => simpa only [busStep, bus] using busKeeps_busInject i s

/-- Settles O56: the engine's state by the bus step's lemmas for its fields, the registers by what a bus step keeps. -/
theorem busWritesNoEngineState : Obligations.BusWritesNoEngineState := by
  intro s b
  obtain ⟨ack, start, stop, sb, addr, btf, timeout, pecerr, ovr, af, arlo, berr, -⟩ := busKeeps_busStep b s
  exact ⟨busStep_queue b s, busStep_cursor b s, busStep_slots b s, busStep_head b s, busStep_armed b s,
    busStep_waitStop b s, busStep_faults b s, busStep_mem b s, busStep_results b s, busStep_loans b s,
    busStep_blocked b s, busStep_critical b s, busStep_raised b s, ack, busStep_drTx b s, sb, addr, btf, timeout,
    pecerr, ovr, af, arlo, berr, start, stop⟩

/-! ### The wire log under every step (rule R202) -/

theorem wire_eq_of_sameOutside {s t : State} (h : sameOutside s t) : t.wire = s.wire := by
  obtain ⟨-, -, -, -, -, -, -, wire, -⟩ := h
  exact wire

/-- The end of the STOP wait is a Command's end, or stops short of one (rule R139). -/
theorem endStopWait_wire {s t : State} (h : endStopWait s = .next t) : t.wire = s.wire := by
  unfold endStopWait at h
  split at h
  · cases h
  · cases h
    rfl
  · exact wire_eq_of_sameOutside (eventKeeps_endCommand (s := { s with waitStop := false }) h).outside

theorem returnPoll_wire (slot : Nat) (s : State) : (returnPoll slot s).wire = s.wire := by
  obtain ⟨ls, -, h⟩ := returnPoll_eq slot s
  rw [h]

/-- Only a step of the bus agent writes the wire log. -/
theorem logGrows_of_did {o : Offer} {s t : State} (h : Did o s t) : LogGrows s t := by
  cases h with
  | bus b => exact (busKeeps_busStep b s).wire
  | enqueued cs => exact logGrows_of_eq (wire_eq_of_sameOutside (HostOps.hostKeeps_enqueue cs s).outside)
  | polled slot => exact logGrows_of_eq (returnPoll_wire slot s)
  | resumed k h => exact logGrows_of_eq (returnPoll_wire h.slot s)
  | event _ _ _ ran => exact logGrows_of_eq (wire_eq_of_sameOutside (event_keeps (i := .evIrq) rfl ran).1.outside)
  | error _ _ _ ran => exact logGrows_of_eq (wire_eq_of_sameOutside (error_keeps (i := .erIrq) rfl ran).outside)
  | stopped _ _ _ ran => exact logGrows_of_eq (endStopWait_wire ran)
  | nothing | held | raced | stored | critical | raised => exact logGrows_of_eq rfl

/-- Settles O60, by everything a step can do; taking the offer leaves the wire log. -/
theorem wireLogOnlyGrows : Obligations.WireLogOnlyGrows := by
  intro s t h
  obtain ⟨sc, tk, did⟩ := step_did h
  have grows := logGrows_of_did did
  exact grows

end Sys2Proof.Bus
end

section
/-!
PROOFS. When the interrupt mechanism takes a handler entry (rules R33, R235, R239), and that in the STOP wait only the
bus agent steps (rule R241).
-/

namespace Sys2Proof.Interrupts

open Sys2Proof.Machine Sys2Proof.Encoding

/-! ### The conditions of an entry (rule R235) -/

section

variable {s : State}

theorem handlersFree_iff :
    handlersFree s = true ↔ s.armed = true ∧ s.waitStop = false ∧ s.critical = false ∧ s.raised = false := by
  simp [handlersFree, and_assoc]

theorem evRequested_iff : evRequested s = true ↔ s.sr1.sb = true ∨ s.sr1.addr = true ∨ s.sr1.btf = true := by
  simp [evRequested, or_assoc]

theorem erRequested_iff :
    erRequested s = true ↔ s.sr1.timeout = true ∨ s.sr1.pecerr = true ∨ s.sr1.ovr = true ∨ s.sr1.af = true ∨
      s.sr1.arlo = true ∨ s.sr1.berr = true := by
  simp [erRequested, or_assoc]

theorem mayEnter_evIrq_iff : mayEnter .evIrq s = true ↔ handlersFree s = true ∧ evRequested s = true :=
  Bool.and_eq_true_iff

theorem mayEnter_erIrq_iff : mayEnter .erIrq s = true ↔ handlersFree s = true ∧ erRequested s = true :=
  Bool.and_eq_true_iff

/-! ### An offered entry (rules R72, R235) -/

theorem decodeReq_interrupt_ev (n : Nat) (wb rb : Buf) : decodeReq n .interrupt 8 wb rb = .ok .evIrq := rfl

theorem decodeReq_interrupt_er (n : Nat) (wb rb : Buf) : decodeReq n .interrupt 9 wb rb = .ok .erIrq := rfl

/-- An entry that may not be taken changes nothing. -/
theorem runInterrupt_of_not_mayEnter {w : Word} {i : Instr}
    (hd : decodeReq s.params.n .interrupt w default default = .ok i) (held : ¬ mayEnter i s = true) :
    runInterrupt w s = .next s := by
  simp only [runInterrupt, hd, if_neg held]

end

/-- Settles O19: the entry's word decodes to its handler, which runs when it may enter and leaves the state when not. -/
theorem handlersEnterOnlyWhenTheyMay : Obligations.HandlersEnterOnlyWhenTheyMay := by
  intro s
  refine ⟨?ev, ?er, ?evHeld, ?erHeld⟩
  case ev =>
    rintro ⟨armed, requested, idle, unmasked, level⟩
    exact runInterrupt_of_ok (decodeReq_interrupt_ev _ _ _)
      (mayEnter_evIrq_iff.2 ⟨handlersFree_iff.2 ⟨armed, idle, unmasked, level⟩, evRequested_iff.2 requested⟩)
  case er =>
    rintro ⟨armed, requested, idle, unmasked, level⟩
    exact runInterrupt_of_ok (decodeReq_interrupt_er _ _ _)
      (mayEnter_erIrq_iff.2 ⟨handlersFree_iff.2 ⟨armed, idle, unmasked, level⟩, erRequested_iff.2 requested⟩)
  case evHeld =>
    intro held
    refine runInterrupt_of_not_mayEnter (decodeReq_interrupt_ev _ _ _) ?_
    rw [mayEnter_evIrq_iff, handlersFree_iff, evRequested_iff]
    rintro ⟨⟨armed, idle, unmasked, level⟩, requested⟩
    have noFlag : s.sr1.sb = false ∧ s.sr1.addr = false ∧ s.sr1.btf = false := by
      simpa only [armed, idle, unmasked, level, Bool.true_eq_false, Bool.false_eq_true, false_or, or_false] using held
    simp [noFlag] at requested
  case erHeld =>
    intro held
    refine runInterrupt_of_not_mayEnter (decodeReq_interrupt_er _ _ _) ?_
    rw [mayEnter_erIrq_iff, handlersFree_iff, erRequested_iff]
    rintro ⟨⟨armed, idle, unmasked, level⟩, requested⟩
    have noFlag : s.sr1.timeout = false ∧ s.sr1.pecerr = false ∧ s.sr1.ovr = false ∧ s.sr1.af = false ∧
        s.sr1.arlo = false ∧ s.sr1.berr = false := by
      simpa only [armed, idle, unmasked, level, Bool.true_eq_false, Bool.false_eq_true, false_or, or_false] using held
    simp [noFlag] at requested

/-! ### The STOP wait (rule R241) -/

section

variable {s t : State} (waiting : s.waitStop = true)
include waiting

theorem taskMayRun_of_waitStop : taskMayRun s = false := by
  simp [taskMayRun, waiting]

theorem mayResume_of_waitStop (h : Hold) : mayResume h s = false := by
  simp [mayResume, waiting]

theorem not_mayEnter_of_waitStop (i : Instr) : ¬ mayEnter i s = true := fun enter => by
  rw [(mayEnter_idle enter).1] at waiting
  cases waiting

theorem runResume_of_waitStop (k : Nat) : runResume k s = s := by
  unfold runResume
  split
  · exact if_neg (by simp [mayResume_of_waitStop waiting])
  · rfl

/-- No handler enters in the STOP wait: the offered word changes nothing, or is refused (rules R72, R74, R235). -/
theorem eq_of_runInterrupt_of_waitStop {w : Word} (ran : runInterrupt w s = .next t) : t = s := by
  cases hd : decodeReq s.params.n .interrupt w default default with
  | ok i =>
    rw [runInterrupt_of_not_mayEnter hd (not_mayEnter_of_waitStop waiting i)] at ran
    cases ran
    rfl
  | error e =>
    rw [runInterrupt_of_error hd] at ran
    cases ran

end

/-- While `CR1.STOP` is 1 the handler's own move changes nothing (rule R139). -/
theorem runStopWait_of_stop {s : State} (stop : s.cr1.stop = true) : runStopWait s = .next s := by
  simp [runStopWait, stop]

/-- Settles O20, move by move: a task's move needs `taskMayRun`, a held FUTURE_BLOCK's `mayResume` and an entry
`mayEnter`, none of which holds in the STOP wait. -/
theorem onlyTheBusStepsDuringTheStopWait : Obligations.OnlyTheBusStepsDuringTheStopWait := by
  intro s t m waiting notBus stop ran
  have noTask := taskMayRun_of_waitStop waiting
  cases m with
  | task | rawEnqueue | load | store | enterCritical | exitCritical | enterRaised | exitRaised =>
    simp only [runMove, runTask, runRawEnqueue, runLoad, runStore, runCritical, runRaised, noTask, Bool.false_and,
      Bool.false_eq_true, if_false] at ran
    cases ran
    rfl
  | resume k =>
    cases ran
    exact runResume_of_waitStop waiting k
  | interrupt w => exact eq_of_runInterrupt_of_waitStop waiting ran
  | stopWait =>
    cases (runStopWait_of_stop (stop rfl)).symm.trans ran
    rfl
  | bus b => exact absurd rfl (notBus b)

end Sys2Proof.Interrupts
end

section
/-!
PROOFS. The work left on the well-behaved reference bus (rule R285): what it is at each stage of the head Command, and
that every step of the bus or of a handler that has something to do uses some of it up (rules R133 to R141, R180, R203
to R207).
-/

namespace Sys2Proof.Progress

open Sys2Proof.Machine Sys2Proof.Safety Sys2Proof.Encoding Sys2Proof.Events Sys2Proof.Bus
  Sys2Proof.Interrupts

section

variable {s t u : State} {c : DataCmd} {r : List Command}

/-! ### The work left for the head Command -/

theorem headWork_of_waiting (waiting : s.waitStop = true) : headWork c s = 1 := by
  simp [headWork, waiting]

theorem headWork_of_begin {b : Bool} (idle : s.waitStop = false) (phase : headPhase s = .begin)
    (start : s.cr1.start = b) : headWork c s = 2 * (c.buf.len.toNat - s.cursor) + if b then 6 else 5 := by
  cases b <;> simp [headWork, idle, phase, start]

theorem headWork_of_startGenerated {b : Bool} (idle : s.waitStop = false) (phase : headPhase s = .startGenerated)
    (answered : (s.sr1.addr || s.sr1.af) = b) :
    headWork c s = 2 * (c.buf.len.toNat - s.cursor) + if b then 3 else 4 := by
  cases b <;> simp [headWork, idle, phase, answered]

theorem headWork_of_write {b : Bool} (idle : s.waitStop = false) (phase : MovingPhase (headPhase s))
    (dir : c.dir = .write) (answered : (s.sr1.btf || s.sr1.af) = b) :
    headWork c s = 2 * (c.buf.len.toNat - s.cursor) + if b then 2 else 3 := by
  obtain phase | phase := phase
  all_goals cases b <;> simp [headWork, idle, phase, dir, answered]

theorem headWork_of_read {b : Bool} (idle : s.waitStop = false) (phase : MovingPhase (headPhase s))
    (dir : c.dir = .read) (received : s.sr1.btf = b) :
    headWork c s = 2 * (c.buf.len.toNat - s.cursor) + if b then 1 else 2 := by
  obtain phase | phase := phase
  all_goals cases b <;> simp [headWork, idle, phase, dir, received]

theorem headWork_of_lastByte {b : Bool} (idle : s.waitStop = false) (phase : headPhase s = .lastByte)
    (received : s.sr1.btf = b) : headWork c s = if b then 2 else 3 := by
  simp [headWork, idle, phase, received]

/-! ### The work left in all -/

/-- The work of a pending STOP, of the head Command and of those behind it. -/
theorem work_of_front {b : Bool} {n : Nat} (front : s.queue = .data c :: r) (stop : s.cr1.stop = b)
    (head : headWork c s = n) : work s = (if b then 1 else 0) + (n + (r.map freshWork).sum) := by
  rw [work, front, ← stop, ← head]

/-- A step that leaves queue and STOP request uses up what it uses up on the head Command. -/
theorem work_lt_of_head (front : s.queue = .data c :: r) (queue : t.queue = s.queue)
    (stop : t.cr1.stop = s.cr1.stop) {m n : Nat} (before : headWork c s = m) (after : headWork c t = n)
    (less : n < m) : work t < work s := by
  rw [work_of_front front rfl before, work_of_front (queue.trans front) stop after]
  exact Nat.add_lt_add_left (Nat.add_lt_add_right less _) _

/-- A sound queue that is not empty has a data Command at its head (rule R40). -/
theorem exists_front (inv : Inv s) (ne : s.queue ≠ []) : ∃ c r, s.queue = .data c :: r := by
  cases front : s.queue with
  | nil => exact absurd front ne
  | cons k r =>
    cases k with
    | noop => exact absurd front inv.queue_ne_noop
    | data c => exact ⟨c, r, rfl⟩

/-- Where the bus is not idle, a Command is at the head. -/
theorem exists_front_of_busy (calm : Calm s) (busy : ¬ idleCalm s) : ∃ c r, s.queue = .data c :: r :=
  exists_front calm.inv (mt calm.onIdle busy)

theorem exists_front_of_mode (calm : Calm s) (mode : ¬ Resting s) : ∃ c r, s.queue = .data c :: r :=
  exists_front_of_busy calm fun idle => mode (idleCalm_iff.1 idle).2

/-! ### Bus steps

As in the stages, a step that is enabled leaves only the stages it can be taken from. -/

/-- The START step takes up a requested START (rule R203). -/
theorem work_busStart (calm : Calm s) (enabled : startEnabled s = true) : work (busStart s) < work s := by
  obtain ⟨start, -, -⟩ := startEnabled_iff.1 enabled
  obtain ⟨c, r, front⟩ := exists_front_of_busy calm fun idle => nomatch idle.1.symm.trans start
  rw [busStart, if_pos enabled]
  cases calm.stage front with
  | requested _ _ idle phase =>
    exact work_lt_of_head front rfl rfl (headWork_of_begin idle phase start)
      (headWork_of_begin (b := false) idle phase rfl) (Nat.add_lt_add_left (by decide) _)
  | started signals | addressing signals | addressedWrite signals | addressedRead signals | addressRefused signals
  | sending _ signals | sent signals | byteRefused signals | receiving _ signals | lastAwaited signals
  | lastReceived signals | stopping signals =>
    exact nomatch signals.start.symm.trans start

/-- The address step answers an address byte, with ACK or NACK (rule R204). -/
theorem work_busAddress {b : Byte} (calm : Calm s) (inFlight : s.mode = .addrInFlight b) (ack : Bool) :
    work (busAddress ack s) < work s := by
  obtain ⟨c, r, front⟩ := exists_front_of_mode calm (by simp [Resting, inFlight])
  simp only [busAddress, inFlight]
  cases calm.stage front with
  | addressing signals _ idle phase =>
    obtain ⟨-, -, addr, -, af⟩ := signals
    have before := headWork_of_startGenerated (c := c) idle phase (b := false) (by rw [addr, af]; rfl)
    cases ack with
    | true =>
      exact work_lt_of_head front rfl rfl before (headWork_of_startGenerated (b := true) idle phase rfl)
        (Nat.add_lt_add_left (by decide) _)
    | false =>
      exact work_lt_of_head front rfl rfl before (headWork_of_startGenerated idle phase (Bool.or_true _))
        (Nat.add_lt_add_left (by decide) _)
  | _ => simp_all [Resting, StopSent]

/-- The transmit step answers a byte of a Write, with ACK or NACK (rule R205). -/
theorem work_busTransmit {b : Byte} (calm : Calm s) (inFlight : s.mode = .txInFlight b) (ack : Bool) :
    work (busTransmit ack s) < work s := by
  obtain ⟨c, r, front⟩ := exists_front_of_mode calm (by simp [Resting, inFlight])
  simp only [busTransmit, inFlight]
  cases calm.stage front with
  | sending _ signals _ idle phase _ _ _ dir =>
    obtain ⟨-, -, -, btf, af⟩ := signals
    have before := headWork_of_write idle phase dir (b := false) (by rw [btf, af]; rfl)
    cases ack with
    | true =>
      exact work_lt_of_head front rfl rfl before (headWork_of_write (b := true) idle phase dir rfl)
        (Nat.add_lt_add_left (by decide) _)
    | false =>
      exact work_lt_of_head front rfl rfl before (headWork_of_write idle phase dir (Bool.or_true _))
        (Nat.add_lt_add_left (by decide) _)
  | _ => simp_all [Resting, StopSent]

/-- The receive step delivers a byte of a Read (rule R206). -/
theorem work_busReceive (calm : Calm s) (enabled : receiveEnabled s = true) (b : Byte) :
    work (busReceive b s) < work s := by
  obtain ⟨rx, noAddr, noBtf⟩ := receiveEnabled_iff.1 enabled
  obtain ⟨c, r, front⟩ := exists_front_of_mode calm (by simp [Resting, rx])
  rw [busReceive, if_pos enabled]
  cases calm.stage front with
  | receiving _ _ _ idle phase _ _ _ dir =>
    exact work_lt_of_head front rfl rfl (headWork_of_read idle phase dir noBtf)
      (headWork_of_read (b := true) idle phase dir rfl) (Nat.add_lt_add_left (by decide) _)
  | lastAwaited _ _ idle phase =>
    exact work_lt_of_head front rfl rfl (headWork_of_lastByte idle phase noBtf)
      (headWork_of_lastByte (b := true) idle phase rfl) (by decide)
  | addressedRead signals => exact nomatch signals.addr.symm.trans noAddr
  | _ => simp_all [Resting, StopSent]

/-- The STOP step takes up the pending STOP (rule R207). -/
theorem work_busStop (enabled : stopEnabled s = true) : work (busStop s) < work s := by
  obtain ⟨stop, -⟩ := stopEnabled_iff.1 enabled
  rw [busStop, if_pos enabled, work, work, stop]
  exact Nat.add_lt_add_right Nat.one_pos _

/-! ### The end of a Command -/

/-- What is behind a NoOp takes no more work than what stood before it. -/
theorem sum_freshWork_of_dropWhile {r' : List Command} (front : s.queue = .data c :: r)
    (group : s.queue.dropWhile (fun k => !isNoop k) = .noop :: r') :
    (r'.map freshWork).sum ≤ (r.map freshWork).sum := by
  have behind : r.dropWhile (fun k => !isNoop k) = .noop :: r' := by simpa [front, isNoop] using group
  have sub : r'.Sublist r := (List.sublist_cons_self _ _).trans (behind ▸ List.dropWhile_sublist _)
  exact (sub.map freshWork).sum_le_sum fun _ _ => Nat.zero_le _

/-- After Finalize the work is a pending STOP and the transactions left. -/
theorem work_finalizeTo (inv : Inv s) (off : OffWire s u)
    (group : s.queue.dropWhile (fun k => !isNoop k) = .noop :: r) (cursor : u.cursor = 0)
    (after : Inv (finalizeTo r u)) :
    work (finalizeTo r u) = (if u.cr1.stop then 1 else 0) + (r.map freshWork).sum := by
  have shape : wellGrouped r = true := finalizeTo_queue r u ▸ after.shape
  by_cases empty : r = []
  · subst empty
    simp [work]
  · obtain ⟨c, r', front⟩ := exists_front after (by rwa [finalizeTo_queue])
    obtain rfl := (finalizeTo_queue r u).symm.trans front
    have phase := headPhase_finalizeTo inv off group shape empty
    have idle : (finalizeTo (.data c :: r') u).waitStop = false := (finalizeTo_waitStop _ _).trans off.waitStop
    rw [work_of_front front rfl (headWork_of_begin (b := true) idle phase rfl), finalizeTo_cursor, cursor]
    rfl

/-- EndCommand leaves at most a pending STOP and the Commands behind the head one. -/
theorem work_endCommand {b : Bool} (calm : Calm s) (front : s.queue = .data c :: r) (off : OffWire s u)
    (queue : u.queue = s.queue) (stop : u.cr1.stop = false) (inv : Inv t) (h : endCommand c b u = .next t) :
    work t ≤ (if b then 0 else 1) + (r.map freshWork).sum := by
  have tail : u.queue.tail = r := by rw [queue, front, List.tail_cons]
  rcases endCommand_next h with ⟨r', next, rfl⟩ | ⟨d, r', next, dir, -⟩ | ⟨d, r', next, -, rfl⟩
  case inl =>
    obtain rfl := tail.symm.trans next
    have group : s.queue.dropWhile (fun k => !isNoop k) = .noop :: r' := by simp [front, isNoop]
    cases b with
    | true => simp [work_finalizeTo calm.inv off.popCommand group rfl inv, stop, freshWork]
    | false => simp [work_finalizeTo calm.inv off.popCommand.requestStop group rfl inv, freshWork]
  case inr.inl =>
    have shape := calm.inv.shape
    rw [front, tail.symm.trans next, wellGrouped_read_data dir] at shape
    cases shape
  case inr.inr =>
    obtain rfl := tail.symm.trans next
    have phase := headPhase_of_written (u := u) inv rfl rfl
    refine le_of_eq_of_le (work_of_front next stop (headWork_of_begin (b := true) off.waitStop phase rfl)) ?_
    simp [freshWork]

/-! ### The EV handler -/

/-- Whatever its stage, the head Command takes a step. -/
theorem headWork_pos (c : DataCmd) (s : State) : 0 < headWork c s := by
  unfold headWork
  repeat' split
  all_goals simp

/-- A byte of a Write is handed to the bus, or the Write ends (rules R134, R136). -/
theorem work_transmitNext {k : Nat} (calm : Calm s) (front : s.queue = .data c :: r) (dir : c.dir = .write)
    (off : OffWire s u) (queue : u.queue = s.queue) (cursor : u.cursor = s.cursor)
    (phase : MovingPhase (headPhase u)) (stop : u.cr1.stop = false)
    (before : headWork c s = 2 * (c.buf.len.toNat - s.cursor) + k) (enough : 2 ≤ k) (inv : Inv t)
    (h : transmitNext c u = .next t) : work t < work s := by
  rw [work_of_front front rfl before]
  rcases transmitNext_next h with ⟨room, -, rfl⟩ | ⟨-, ended⟩
  · obtain ⟨-, -, -, btf, af⟩ := off.signals
    refine lt_of_eq_of_lt (work_of_front (queue.trans front) stop
      (headWork_of_write (b := false) off.waitStop phase dir (by simp [btf, af]))) ?_
    simp only [cursor, Bool.false_eq_true, if_false] at room ⊢
    omega
  · have := work_endCommand calm front off queue stop inv ended
    simp only [Bool.false_eq_true, if_false] at this
    omega

/-- A received byte is stored; after the last but one the STOP requested in advance is work too (rule R137). -/
theorem work_evBtfRead (calm : Calm s) (front : s.queue = .data c :: r) (dir : c.dir = .read)
    (btf : s.sr1.btf = true) (idle : s.waitStop = false) (phase : MovingPhase (headPhase s))
    (room : s.cursor + 1 < c.buf.len.toNat) (stop : s.cr1.stop = false) (h : exec .evBtfRead s = .next t) :
    work t < work s := by
  have notLast : headPhase s ≠ .lastByte := by obtain phase | phase := phase <;> simp [phase]
  rw [exec_evBtfRead_of_read front dir notLast, beginReceive_of_moving phase] at h
  rw [work_of_front front stop (headWork_of_read idle phase dir btf)]
  rcases capture_next h with ⟨full, -⟩ | ⟨-, -, rfl⟩
  · exact absurd (Nat.lt_of_succ_lt room) (Nat.not_lt.2 full)
  · by_cases last : s.cursor + 1 + 1 = c.buf.len.toNat
    · rw [nackLast_of_eq last]
      refine lt_of_eq_of_lt (work_of_front front (b := true) rfl
        (headWork_of_lastByte (b := false) idle (headPhase_of_set calm.inv (List.set_set ..) rfl) rfl)) ?_
      simp only [Bool.false_eq_true, if_true, if_false]
      omega
    · rw [nackLast_of_ne last]
      refine lt_of_eq_of_lt (work_of_front front stop
        (headWork_of_read (b := false) idle (.inr (headPhase_of_set calm.inv rfl rfl)) dir rfl)) ?_
      simp only [storeReceived_cursor, setHeadPhase_cursor, clearBtf_cursor, Bool.false_eq_true, if_true, if_false]
      omega

/-- The last byte of a Read is stored and the STOP wait begins (rule R138). -/
theorem work_evBtfReadLast (front : s.queue = .data c :: r) (dir : c.dir = .read) (btf : s.sr1.btf = true)
    (idle : s.waitStop = false) (phase : headPhase s = .lastByte) (last : s.cursor + 1 = c.buf.len.toNat)
    (h : exec .evBtfReadLast s = .next t) : work t < work s := by
  rw [exec_evBtfReadLast_of_read front dir phase] at h
  rcases capture_next h with ⟨full, -⟩ | ⟨-, -, rfl⟩
  · exact absurd full (Nat.not_le.2 (Nat.lt_of_succ_le last.le))
  · exact work_lt_of_head front rfl rfl (headWork_of_lastByte idle phase btf) (headWork_of_waiting rfl) (by decide)

/-- An entry of the EV handler serves the flag that requested it. -/
theorem work_execEvIrq (calm : Calm s) (idle : s.waitStop = false) (requested : evRequested s = true) (inv : Inv t)
    (h : execEvIrq s = .next t) : work t < work s := by
  have quiet {P : Prop} (sb : s.sr1.sb = false) (addr : s.sr1.addr = false) (btf : s.sr1.btf = false) : P := by
    simp [evRequested, sb, addr, btf] at requested
  obtain ⟨c, r, front⟩ := exists_front_of_busy calm fun ⟨_, sb, addr, btf, _⟩ => quiet sb addr btf
  have ran {k : EvCase} (selected : selectEvt s.sr1 c.dir (decide (headPhase s = .lastByte)) = k) :
      exec k.instr s = .next t := by
    rw [← selected, ← exec_evIrq_data front]
    exact h
  cases calm.stage front with
  | requested signals | addressing signals | addressRefused signals | sending _ signals | byteRefused signals
  | lastAwaited signals => exact quiet signals.sb signals.addr signals.btf
  | stopping _ _ waiting => exact nomatch waiting.symm.trans idle
  | started signals _ _ phase =>
    obtain ⟨start, sb, addr, -, af⟩ := signals
    cases (exec_evSb_data front).symm.trans (ran (k := .sb) (by simp [selectEvt, sb]))
    exact work_lt_of_head front rfl rfl (headWork_of_begin idle phase start)
      (headWork_of_startGenerated (b := false) idle (headPhase_of_set calm.inv rfl rfl) (by simp [addr, af]))
      (Nat.add_lt_add_left (by decide) _)
  | addressedWrite signals mode _ phase _ _ stop dir =>
    obtain ⟨start, sb, addr, btf, af⟩ := signals
    have off : OffWire s (clearAddr (setHeadPhase .addressSend s)) :=
      offWire_of_calm calm rfl rfl rfl idle rfl rfl ⟨start, sb, rfl, btf, af⟩ (.inr mode)
    exact work_transmitNext calm front dir off rfl rfl (.inl (headPhase_of_set calm.inv rfl rfl)) stop
      (headWork_of_startGenerated (b := true) idle phase (by simp [addr])) (by decide) inv
      ((exec_evWrite_of_write front dir).1.symm.trans (ran (k := .addrWrite) (by simp [selectEvt, sb, addr, dir])))
  | sent signals mode _ phase _ _ stop dir =>
    obtain ⟨start, sb, addr, btf, af⟩ := signals
    have off : OffWire s (clearBtf (setHeadPhase .byteProcessing s)) :=
      offWire_of_calm calm rfl rfl rfl idle rfl rfl ⟨start, sb, addr, rfl, af⟩ (.inr mode)
    exact work_transmitNext calm front dir off rfl rfl (.inr (headPhase_of_set calm.inv rfl rfl)) stop
      (headWork_of_write (b := true) idle phase dir (by simp [btf])) (by decide) inv
      ((exec_evWrite_of_write front dir).2.symm.trans
        (ran (k := .btfWrite) (by simp [selectEvt, sb, addr, btf, dir])))
  | addressedRead signals _ _ phase _ _ _ dir =>
    obtain ⟨-, sb, addr, btf, -⟩ := signals
    have long : 2 ≤ c.buf.len.toNat := calm.reads c (front ▸ List.mem_cons_self) dir
    cases (exec_evAddrRead_of_room front dir (Nat.zero_lt_of_lt long)).symm.trans
      (ran (k := .addrRead) (by simp [selectEvt, sb, addr, dir]))
    exact work_lt_of_head front rfl rfl (headWork_of_startGenerated (b := true) idle phase (by simp [addr]))
      (headWork_of_read idle (.inl (headPhase_of_set calm.inv rfl rfl)) dir btf) (Nat.add_lt_add_left (by decide) _)
  | receiving btf signals _ _ phase cursor _ stop dir =>
    cases btf with
    | false => exact quiet signals.sb signals.addr signals.btf
    | true =>
      have notLast : headPhase s ≠ .lastByte := by obtain phase | phase := phase <;> simp [phase]
      exact work_evBtfRead calm front dir signals.btf idle phase cursor stop
        (ran (k := .btfRead) (by simp [selectEvt, signals.sb, signals.addr, signals.btf, dir, notLast]))
  | lastReceived signals _ _ phase cursor _ dir =>
    exact work_evBtfReadLast front dir signals.btf idle phase cursor
      (ran (k := .btfReadLast) (by simp [selectEvt, signals.sb, signals.addr, signals.btf, dir, phase]))

/-! ### The ER handler and the end of the STOP wait -/

/-- A NACK fails the head transaction, and what is left of it is skipped (rules R174, R179, R180). -/
theorem work_execErIrq (calm : Calm s) (idle : s.waitStop = false) (af : s.sr1.af = true) (inv : Inv t)
    (h : execErIrq s = .next t) : work t < work s := by
  obtain ⟨c, r, front⟩ := exists_front_of_busy calm fun ⟨_, _, _, _, noAf, _⟩ => nomatch noAf.symm.trans af
  obtain ⟨⟨start, sb, addr, btf, -⟩, mode⟩ := (calm.stage front).nacked af
  rw [execErIrq, selectErr_of_noInjected calm.noInjected, af] at h
  rcases reportError_next h with ⟨empty, -⟩ | ⟨_, noop, -⟩ | ⟨_, _, -, failed⟩
  · cases front.symm.trans empty
  · cases front.symm.trans noop
  · obtain ⟨r', group, rfl⟩ := failHead_next failed
    rw [work_of_front front rfl rfl]
    refine lt_of_eq_of_lt (work_finalizeTo calm.inv
      (offWire_of_calm calm rfl rfl rfl idle rfl rfl ⟨start, sb, addr, btf, rfl⟩ (.inl mode)) group rfl inv) ?_
    exact Nat.add_lt_add_left (lt_add_of_pos_of_le (headWork_pos c s) (sum_freshWork_of_dropWhile front group)) _

/-- In the STOP wait no signal is set, and only the STOP is awaited. -/
theorem stopSent_of_waiting (h : Stage c s) (waiting : s.waitStop = true) :
    Signals s false false false false false ∧ StopSent s := by
  cases h with
  | stopping signals mode => exact ⟨signals, mode⟩
  | requested _ _ idle | started _ _ idle | addressing _ _ idle | addressedWrite _ _ idle | addressedRead _ _ idle
  | addressRefused _ _ idle | sending _ _ _ idle | sent _ _ idle | byteRefused _ _ idle | receiving _ _ _ idle
  | lastAwaited _ _ idle | lastReceived _ _ idle => exact nomatch waiting.symm.trans idle

/-- Once the STOP is on the wire the Read ends (rule R139). -/
theorem work_stopWait (calm : Calm s) (waiting : s.waitStop = true) (done : s.cr1.stop = false) (inv : Inv t)
    (h : runMove .stopWait s = .next t) : work t < work s := by
  obtain ⟨c, r, front, -⟩ := calm.inv.waiting waiting
  obtain ⟨⟨start, sb, addr, btf, af⟩, mode⟩ := stopSent_of_waiting (calm.stage front) waiting
  rw [runMove_stopWait_of_done waiting done front] at h
  have off : OffWire s { s with waitStop := false } :=
    { params := rfl, head := rfl, slots := fun _ _ => rfl, waitStop := rfl, injected := calm.noInjected
      overflow := calm.noOverflow, signals := ⟨start, sb, addr, btf, af⟩
      mode := mode.elim (fun pending => nomatch pending.2.symm.trans done) fun sent => .inl sent.1 }
  rw [work_of_front front done rfl]
  exact (work_endCommand calm front off rfl done inv h).trans_lt
    (Nat.add_lt_add_left (Nat.lt_add_of_pos_left (headWork_pos c s)) 0)

/-! ### Every step of the bus or of a handler -/

/-- A bus step that is not enabled changes nothing; every other uses up work. -/
theorem eq_or_work_busStep (calm : Calm s) {b : BusMove} (ok : calmMove (.bus b) = true) :
    busStep b s = s ∨ work (busStep b s) < work s := by
  refine busStep_calm (P := fun t => t = s ∨ work t < work s) ok calm.reference ?start (fun ack => ?address)
    (fun ack => ?transmit) (fun b => ?receive) ?stop
  case start =>
    by_cases enabled : startEnabled s = true
    · exact .inr (work_busStart calm enabled)
    · exact .inl (if_neg enabled)
  case address =>
    cases mode : s.mode with
    | addrInFlight b => exact .inr (work_busAddress calm mode ack)
    | _ => exact .inl (by simp only [busAddress, mode])
  case transmit =>
    cases mode : s.mode with
    | txInFlight b => exact .inr (work_busTransmit calm mode ack)
    | _ => exact .inl (by simp only [busTransmit, mode])
  case receive =>
    by_cases enabled : receiveEnabled s = true
    · exact .inr (work_busReceive calm enabled b)
    · exact .inl (if_neg enabled)
  case stop =>
    by_cases enabled : stopEnabled s = true
    · exact .inr (work_busStop enabled)
    · exact .inl (if_neg enabled)

/-- An offered entry is refused, taken by a handler that may enter, or leaves the state as it is (rules R74, R235). -/
theorem runInterrupt_next {w : Word} (h : runInterrupt w s = .next t) :
    t = s ∨ ∃ i, mayEnter i s = true ∧ exec i s = .next t ∧ (i = .evIrq ∨ i = .erIrq) := by
  cases decoded : decodeReq s.params.n .interrupt w default default with
  | error e => cases (runInterrupt_of_error decoded).symm.trans h
  | ok i =>
    by_cases enter : mayEnter i s = true
    · rw [runInterrupt_of_ok decoded enter] at h
      exact .inr ⟨i, enter, h, decodeReq_interrupt decoded⟩
    · cases (runInterrupt_of_not_mayEnter decoded enter).symm.trans h
      exact .inl rfl

/-- Without an injected fault only a NACK requests the error interrupt (rule R33). -/
theorem af_of_erRequested (calm : Calm s) (requested : erRequested s = true) : s.sr1.af = true := by
  have injected := calm.noInjected
  simp only [noInjected, Bool.and_eq_true, Bool.not_eq_true'] at injected
  simpa [erRequested, injected] using requested

/-- A handler that enters uses up work. -/
theorem work_exec_entry {i : Instr} (calm : Calm s) (enter : mayEnter i s = true) (entry : i = .evIrq ∨ i = .erIrq)
    (inv : Inv t) (h : exec i s = .next t) : work t < work s := by
  obtain ⟨idle, -⟩ := mayEnter_idle enter
  obtain rfl | rfl := entry
  · exact work_execEvIrq calm idle (mayEnter_evIrq_iff.1 enter).2 inv h
  · exact work_execErIrq calm idle (af_of_erRequested calm (mayEnter_erIrq_iff.1 enter).2) inv h

end

/-- Settles O16, agent by agent: a handler entry that may be taken, the end of the STOP wait and every enabled bus step
uses up work, and in any other case the offer changes nothing. -/
theorem everyServingStepUsesUpWork : Obligations.EveryServingStepUsesUpWork := by
  intro s t m calm serving ok ran
  have inv : Inv t := (Effect.of_did (runMove_did ran)).inv calm.inv
  cases m with
  | interrupt w =>
    obtain same | ⟨i, enter, run, entry⟩ := runInterrupt_next ran
    · exact .inl same
    · exact .inr (work_exec_entry calm enter entry inv run)
  | stopWait =>
    by_cases ended : (s.waitStop && !s.cr1.stop) = true
    · obtain ⟨waiting, done⟩ := Bool.and_eq_true_iff.1 ended
      exact .inr (work_stopWait calm waiting (by simpa using done) inv ran)
    · cases (if_neg ended).symm.trans ran
      exact .inl rfl
  | bus b =>
    cases ran
    exact eq_or_work_busStep calm ok
  | task | rawEnqueue | resume | load | store | enterCritical | exitCritical | enterRaised | exitRaised => cases serving

end Sys2Proof.Progress
end

section
/-!
PROOFS. While a transaction is queued the bus agent or a handler has a step that uses up work (rules R211, R285).
-/

namespace Sys2Proof.Progress

open Sys2Proof.Machine Sys2Proof.Safety Sys2Proof.Spec Sys2Proof.Encoding Sys2Proof.Events Sys2Proof.Bus
  Sys2Proof.Interrupts

/-- Some step of a handler or of the bus agent brings the queue nearer to empty. -/
def Served (s : State) : Prop :=
  ∃ (m : Move) (t : State), servingMove m = true ∧ calmMove m = true ∧ runMove m s = .next t ∧ work t < work s

section

variable {s : State} (calm : Calm s)
include calm

theorem served_by_start (enabled : startEnabled s = true) : Served s :=
  ⟨_, _, rfl, rfl, runMove_start calm.reference, work_busStart calm enabled⟩

theorem served_by_address {b : Byte} (inFlight : s.mode = .addrInFlight b) : Served s :=
  ⟨_, _, rfl, rfl, runMove_address calm.reference true, work_busAddress calm inFlight true⟩

theorem served_by_transmit {b : Byte} (inFlight : s.mode = .txInFlight b) : Served s :=
  ⟨_, _, rfl, rfl, runMove_transmit calm.reference true, work_busTransmit calm inFlight true⟩

theorem served_by_receive (enabled : receiveEnabled s = true) : Served s :=
  ⟨_, _, rfl, rfl, runMove_receive calm.reference 0, work_busReceive calm enabled 0⟩

theorem served_by_stop (enabled : stopEnabled s = true) : Served s :=
  ⟨_, _, rfl, rfl, runMove_stop calm.reference, work_busStop enabled⟩

/-- An entry that may be taken, and completes, serves the queue. -/
theorem served_by_entry {w : Word} {i : Instr} (decoded : decodeReq s.params.n .interrupt w default default = .ok i)
    (enter : mayEnter i s = true) (completes : ∃ t, exec i s = .next t) : Served s := by
  obtain ⟨t, run⟩ := completes
  have ran : runMove (.interrupt w) s = .next t := (runInterrupt_of_ok decoded enter).trans run
  exact ⟨_, t, rfl, rfl, ran, work_exec_entry calm enter (decodeReq_interrupt decoded)
    ((Effect.of_did (runMove_did ran)).inv calm.inv) run⟩

/-- The end of the STOP wait serves the queue. -/
theorem served_by_stopWait (waiting : s.waitStop = true) (done : s.cr1.stop = false) : Served s := by
  obtain ⟨c, r, front, -⟩ := calm.inv.waiting waiting
  have shape := calm.inv.shape
  rw [front] at shape
  have more := ne_nil_of_wellGrouped shape
  obtain ⟨t, run⟩ := endCommand_completes (s := { s with waitStop := false }) front more true
  have ran : runMove .stopWait s = .next t := (runMove_stopWait_of_done waiting done front).trans run
  exact ⟨_, t, rfl, rfl, ran, work_stopWait calm waiting done ((Effect.of_did (runMove_did ran)).inv calm.inv) ran⟩

end

/-- Settles O17, stage by stage: the bus takes up what the engine requested, or its flag lets a handler enter. -/
theorem somebodyServesTheQueue : Obligations.SomebodyServesTheQueue := by
  intro s calm queued critical raised space
  obtain ⟨c, r, front⟩ := exists_front calm.inv queued
  have armed : s.armed = true := by rw [calm.inv.armed, front]; rfl
  obtain ⟨⟨_, event, _⟩, _, error, _⟩ := handlerEntriesComplete s calm.inv space
  have free (idle : s.waitStop = false) : handlersFree s = true := handlersFree_iff.2 ⟨armed, idle, critical, raised⟩
  have byEvent (idle : s.waitStop = false) (flag : s.sr1.sb = true ∨ s.sr1.addr = true ∨ s.sr1.btf = true) :
      Served s :=
    served_by_entry calm (decodeReq_interrupt_ev _ _ _) (mayEnter_evIrq_iff.2 ⟨free idle, evRequested_iff.2 flag⟩)
      ⟨_, event⟩
  have byError (idle : s.waitStop = false) (af : s.sr1.af = true) : Served s :=
    served_by_entry calm (decodeReq_interrupt_er _ _ _)
      (mayEnter_erIrq_iff.2 ⟨free idle, erRequested_iff.2 (by simp [af])⟩) ⟨_, error⟩
  cases calm.stage front with
  | requested signals mode =>
    have resting : s.mode = .idle ∨ s.mode = .txIdle ∨ s.mode = .rxDone := mode.imp_right .inl
    cases stop : s.cr1.stop with
    | true => exact served_by_stop calm (stopEnabled_iff.2 ⟨stop, resting⟩)
    | false => exact served_by_start calm (startEnabled_iff.2 ⟨signals.start, stop, resting⟩)
  | started signals _ idle => exact byEvent idle (.inl signals.sb)
  | addressing _ mode => exact served_by_address calm mode
  | addressedWrite signals _ idle | addressedRead signals _ idle => exact byEvent idle (.inr (.inl signals.addr))
  | addressRefused signals _ idle | byteRefused signals _ idle => exact byError idle signals.af
  | sending _ _ mode => exact served_by_transmit calm mode
  | sent signals _ idle | lastReceived signals _ idle => exact byEvent idle (.inr (.inr signals.btf))
  | receiving btf signals mode idle =>
    cases btf with
    | true => exact byEvent idle (.inr (.inr signals.btf))
    | false => exact served_by_receive calm (receiveEnabled_iff.2 ⟨mode, signals.addr, signals.btf⟩)
  | lastAwaited signals mode =>
    exact served_by_receive calm (receiveEnabled_iff.2 ⟨mode, signals.addr, signals.btf⟩)
  | stopping _ mode waiting =>
    obtain ⟨mode, stop⟩ | ⟨-, done⟩ := mode
    · exact served_by_stop calm (stopEnabled_iff.2 ⟨stop, .inr (.inr mode)⟩)
    · exact served_by_stopWait calm waiting done

end Sys2Proof.Progress
end

section
/-!
PROOFS. Where no handler step can run, inside a critical section or at or above the handlers' priority, a FUTURE_BLOCK
holds and the queue does not drain (rules R235, R239, R275).
-/

namespace Sys2Proof.Interrupts

open Sys2Proof.Machine Sys2Proof.Safety Sys2Proof.Spec Sys2Proof.Encoding Sys2Proof.HostOps Sys2Proof.Progress

section

variable {s t : State}

/-- A context in which no handler step can run (rule R275; logs 20, 35). -/
def HandlersOut (s : State) : Prop := s.waitStop = false ∧ (s.critical = true ∨ s.raised = true)

/-! ### No handler step (rules R235, R239) -/

theorem HandlersOut.not_mayEnter (out : HandlersOut s) (i : Instr) : ¬ mayEnter i s = true := by
  have masked : handlersFree s = false := by
    obtain ⟨-, h | h⟩ := out <;> simp [handlersFree, h]
  simp [mayEnter, evMayEnter, erMayEnter, masked]

/-- The offered entry is refused or changes nothing. -/
theorem HandlersOut.eq_of_runInterrupt (out : HandlersOut s) {w : Word} (h : runInterrupt w s = .next t) : t = s := by
  obtain same | ⟨i, enter, -⟩ := runInterrupt_next h
  · exact same
  · exact absurd enter (out.not_mayEnter i)

/-- No handler waits for a STOP. -/
theorem HandlersOut.eq_of_runStopWait (out : HandlersOut s) (h : runStopWait s = .next t) : t = s := by
  rw [runStopWait, out.1, Bool.false_and, if_neg Bool.false_ne_true] at h
  cases h
  rfl

/-! ### A FUTURE_BLOCK that holds there -/

/-- A hold issued where no handler step can run keeps every task from running (log 33). -/
theorem taskMayRun_of_handlersOut {h : Hold} (held : h ∈ s.blocked) (out : h.handlersOut = true) :
    taskMayRun s = false := by
  have any : s.blocked.any Hold.handlersOut = true := List.any_eq_true.2 ⟨h, held, out⟩
  simp [taskMayRun, any]

/-- A hold on an unresolved slot is not the one that resumes. -/
theorem mem_blocked_runResume {h : Hold} (held : h ∈ s.blocked) (open_ : phaseTerminal (phaseAt s h.slot) = false)
    (k : Nat) : h ∈ (runResume k s).blocked := by
  unfold runResume
  split
  · rename_i h' found
    split
    · rename_i may
      obtain ⟨i, atI⟩ := List.mem_iff_getElem?.1 held
      have other : i ≠ k := by
        rintro rfl
        obtain rfl := Option.some.inj (found.symm.trans atI)
        simp [mayResume, open_] at may
      exact List.mem_eraseIdx_iff_getElem?.2 ⟨i, other, atI⟩
    · exact held
  · exact held

/-- Reading a slot again writes the tasks' side only. -/
theorem runResume_eq (k : Nat) (s : State) :
    ∃ rs ls bs, runResume k s = { s with results := rs, loans := ls, blocked := bs } := by
  unfold runResume
  split
  · split
    · obtain ⟨ls, -, eq⟩ := returnPoll_eq _ s
      exact ⟨_, ls, _, by rw [eq]⟩
    · exact ⟨s.results, s.loans, s.blocked, rfl⟩
  · exact ⟨s.results, s.loans, s.blocked, rfl⟩

/-- While such a hold stands only a held FUTURE_BLOCK's resume and the bus agent have a step. -/
theorem HandlersOut.eq_of_runMove {m : Move} (out : HandlersOut s) (noTask : taskMayRun s = false)
    (h : runMove m s = .next t) : t = s ∨ (∃ k, t = runResume k s) ∨ ∃ b, t = busStep b s := by
  cases m with
  | task | rawEnqueue | load | store | enterCritical | exitCritical | enterRaised | exitRaised =>
    simp only [runMove, runTask, runRawEnqueue, runLoad, runStore, runCritical, runRaised, noTask, Bool.false_and,
      Bool.false_eq_true, if_false] at h
    cases h
    exact .inl rfl
  | resume k =>
    cases h
    exact .inr (.inl ⟨k, rfl⟩)
  | interrupt w => exact .inl (out.eq_of_runInterrupt h)
  | stopWait => exact .inl (out.eq_of_runStopWait h)
  | bus b =>
    cases h
    exact .inr (.inr ⟨b, rfl⟩)

/-! ### The queue there -/

/-- The queue loses no entry, and the room for it does not grow. -/
structure NeverDrains (s t : State) : Prop where
  queue : ∃ ks, t.queue = s.queue ++ ks := by exact ⟨[], (List.append_nil _).symm⟩
  waitStop : t.waitStop = s.waitStop := by rfl
  params : t.params = s.params := by rfl

theorem neverDrains_enqueue (cs : List DataCmd) (s : State) : NeverDrains s (enqueue cs s) := by
  obtain ⟨-, h⟩ | ⟨-, h⟩ := enqueue_cases cs s
  · rw [h]
    exact {}
  · rw [h]
    exact ⟨⟨_, acceptEnqueue_queue cs s⟩, acceptEnqueue_waitStop cs s, acceptEnqueue_params cs s⟩

/-- A task's request enqueues, or writes the tasks' side only. -/
theorem neverDrains_runTask {w : Word} {wb rb : Buf} (h : runTask w wb rb s = .next t) : NeverDrains s t := by
  unfold runTask at h
  split at h
  · split at h
    · rename_i i decoded
      have host : enqueues i ≠ none ∨ isFuture i = true := by
        rcases decodeReq_task decoded with ⟨a, rfl⟩ | ⟨a, rfl⟩ | ⟨a, rfl⟩ | ⟨k, rfl, -⟩ | ⟨k, rfl, -⟩
        all_goals simp [enqueues, isFuture]
      obtain host | host := host
      · obtain ⟨cs, rfl⟩ := exec_enqueues_next host h
        exact neverDrains_enqueue cs s
      · obtain ⟨rs, ls, bs, rfl⟩ := exec_future_next host h
        exact {}
    · cases h
  · cases h
    exact {}

theorem neverDrains_runRawEnqueue {es : List CmdWords} (h : runRawEnqueue es s = .next t) : NeverDrains s t := by
  unfold runRawEnqueue at h
  split at h
  · split at h
    · cases h
    · split at h
      · cases h
        exact neverDrains_enqueue _ s
      · cases h
  · cases h
    exact {}

/-- No agent's step takes an entry off the queue where the handlers cannot run. -/
theorem HandlersOut.neverDrains {m : Move} (out : HandlersOut s) (h : runMove m s = .next t) : NeverDrains s t := by
  cases m with
  | task w wb rb => exact neverDrains_runTask h
  | rawEnqueue es => exact neverDrains_runRawEnqueue h
  | resume k =>
    obtain ⟨rs, ls, bs, eq⟩ := runResume_eq k s
    cases (congrArg _ eq).symm.trans h
    exact {}
  | load | store | enterCritical | exitCritical | enterRaised | exitRaised =>
    simp only [runMove, runLoad, runStore, runCritical, runRaised] at h
    repeat' split at h
    all_goals
      cases h
      exact {}
  | interrupt w =>
    cases out.eq_of_runInterrupt h
    exact {}
  | stopWait =>
    cases out.eq_of_runStopWait h
    exact {}
  | bus b =>
    cases h
    exact { queue := ⟨[], by simp⟩, waitStop := busStep_waitStop b s, params := busStep_params b s }

/-- An enqueue answers Busy only without room: an accepted one lengthens the queue (rules R100, R101). -/
theorem no_room_of_busy {cs : List DataCmd} (busy : enqueue cs s = giveResult (.enq .busy) s) :
    s.params.n < s.queue.length + cs.length + 1 := by
  by_contra room
  rw [enqueue_of_room (Nat.not_lt.1 room)] at busy
  have := congrArg (fun u : State => u.queue.length) busy
  simp at this

/-- Busy is answered again when the queue has not drained. -/
theorem NeverDrains.busy (kept : NeverDrains s t) {i : Instr} {cs : List DataCmd} (enq : enqueues i = some cs)
    (busy : exec i s = .next (giveResult (.enq .busy) s)) : exec i t = .next (giveResult (.enq .busy) t) := by
  have full := no_room_of_busy (Host.Outcome.next.inj ((exec_of_enqueues enq s).symm.trans busy))
  obtain ⟨ks, queue⟩ := kept.queue
  rw [exec_of_enqueues enq, enqueue_of_no_room]
  rw [kept.params, queue, List.length_append]
  omega

end

/-- Settles O21: no task and no handler has a step to lift the hold, and no handler has one to drain the queue. -/
theorem blockWhereNoHandlerRunsHoldsForEver : Obligations.BlockWhereNoHandlerRunsHoldsForEver := by
  refine ⟨fun s t m h idle held issued open_ ran => ?hold, fun s t m idle context ran => ?queue⟩
  case hold =>
    have out : HandlersOut s := ⟨idle, issued.imp And.right And.right⟩
    have outside : h.handlersOut = true := Bool.or_eq_true_iff.2 (issued.imp And.left And.left)
    obtain rfl | ⟨k, rfl⟩ | ⟨b, rfl⟩ := out.eq_of_runMove (taskMayRun_of_handlersOut held outside) ran
    · exact ⟨held, rfl, rfl, idle, rfl⟩
    · refine ⟨mem_blocked_runResume held open_ k, ?_⟩
      obtain ⟨rs, ls, bs, eq⟩ := runResume_eq k s
      rw [eq]
      exact ⟨rfl, rfl, idle, rfl⟩
    · simp only [busStep_blocked, busStep_critical, busStep_raised, busStep_waitStop, busStep_slots]
      exact ⟨held, trivial, trivial, idle, trivial⟩
  case queue =>
    have kept : NeverDrains s t := HandlersOut.neverDrains ⟨idle, context⟩ ran
    exact ⟨kept.queue, kept.waitStop.trans idle, fun i cs enq busy => kept.busy enq busy⟩

end Sys2Proof.Interrupts
end
